-- ==== Sys2Proof/Word.lean ====
section
/-! DEFINITION. The words of the block's interface (spec 00_scope.md R10, R11; 20_memory.md R50; 30_encoding.md R80). -/

namespace Sys2Proof

/-- A 32-bit foreground word, bit 0 least significant (R10, R11, R50). -/
abbrev Word := BitVec 32

/-- One byte of the sentence (R15). -/
abbrev Byte := BitVec 8

/-- A word offset of the foreground register space (R50). -/
abbrev Offset := BitVec 8

/-- An operation word: exactly ten bits (R80). -/
abbrev OpWord := BitVec 10

end Sys2Proof
end

