-- ==== Sys2Proof/Config.lean ====
section
/-! DEFINITION. The fixed parameters (spec 00_scope.md R8), the open parameters with their bounds (R9, 60_exceptions.md
R222 a), the order in which the foreground accesses the block (60_exceptions.md R230, R239), and the opaque values this
machine is given for them. -/

namespace Sys2Proof

/-- A time of day: the hour, minute and second of the VirtualClock or of the SNAP latch, binary, each in its range
(R10, R24 to R28, R37). -/
structure TimeOfDay where
  hour : Fin 24
  minute : Fin 60
  second : Fin 60
deriving DecidableEq, Repr

namespace Config

/-- `DIVIDE`: rising edges of the 10 Hz group per 1 Hz event (R8). -/
abbrev divide : Nat := 10

/-- `PERIOD_US`: one 10 Hz period in microseconds (R8, D6). -/
abbrev periodUs : Nat := 100000

/-- `SEED`: the clock value at reset (R8, D3). -/
def seed : TimeOfDay := { hour := 12, minute := 0, second := 0 }

/-- `SENT_LEN`: bytes in one framed sentence (R8). -/
abbrev sentLen : Nat := 67

/-- `PAYLOAD_FIRST`: position of the first checksummed byte (R8). -/
abbrev payloadFirst : Nat := 1

/-- `PAYLOAD_LAST`: position of the last checksummed byte (R8). -/
abbrev payloadLast : Nat := 61

end Config

/-- The open parameters (R9), as raw naturals. -/
structure Params where
  /-- `PULSE_WIDTH_US` -/
  pulseWidthUs : Nat
  /-- `INITIAL_ALARM_US` -/
  initialAlarmUs : Nat
  /-- `N10` -/
  n10 : Nat
  /-- `N1` -/
  n1 : Nat
deriving DecidableEq, Repr

/-- The bounds of R9; a configuration outside them is refused (R222 a, R260). -/
def Params.admissible (p : Params) : Bool :=
  decide (1 ≤ p.pulseWidthUs) && decide (p.pulseWidthUs ≤ Config.periodUs - 1)
    && decide (1 ≤ p.initialAlarmUs) && decide (1 ≤ p.n10) && decide (1 ≤ p.n1)

/-- A configuration together with the outcome of the check of R9: one value for every `Params`, no more. -/
inductive Configuration where
  /-- The parameters are within the bounds of R9. -/
  | admitted (p : Params) (h : p.admissible = true)
  /-- The parameters are outside the bounds of R9: every run is refused (R222 a). -/
  | rejected (p : Params) (h : p.admissible = false)
deriving DecidableEq, Repr

/-- The configuration a choice of parameters gives (R9, R222 a). -/
def Configuration.ofParams (p : Params) : Configuration :=
  match h : p.admissible with
  | true => .admitted p h
  | false => .rejected p h

/-- The parameters of a configuration, admitted or not. -/
def Configuration.params : Configuration → Params
  | .admitted p _ => p
  | .rejected p _ => p

/-- Whether the check of R9 was passed. -/
def Configuration.isAdmitted : Configuration → Bool
  | .admitted _ _ => true
  | .rejected _ _ => false

/-- One access of the foreground agent, of 32 bits (R13, R50, R62). -/
inductive Access where
  /-- `BusRead(A)`. -/
  | read (offset : Offset)
  /-- `BusWrite(A, d)`. -/
  | write (offset : Offset) (data : Word)
deriving DecidableEq, Repr

/-- An infinite order of steps: entry `k` lists the accesses ordered in alarm interval `k`, between its expiry and the one
before. The list is finite, because an interval is (R229): every order has infinitely many expiries (R239). -/
abbrev AccessOrder : Type := Nat → List Access

namespace Config

/-- Open (D7, NS-2): `PULSE_WIDTH_US` less one; any value of [0, PERIOD_US - 2]. No body: nothing can be proved of it. -/
opaque pulseWidthChoice : Fin 99999

/-- Open (D8, NS-16): `INITIAL_ALARM_US` less one. No body. -/
opaque initialAlarmChoice : Nat

/-- Open (D9, NS-4): `N10` less one. No body. -/
opaque n10Choice : Nat

/-- Open (D9, NS-4): `N1` less one. No body. -/
opaque n1Choice : Nat

/-- The parameters this machine has: any that R9 admits, and nothing more is known of them. -/
def chosenParams : Params :=
  { pulseWidthUs := pulseWidthChoice.val + 1
    initialAlarmUs := initialAlarmChoice + 1
    n10 := n10Choice + 1
    n1 := n1Choice + 1 }

/-- The chosen parameters are within the bounds of R9, whatever they are. -/
theorem chosenParams_admissible : chosenParams.admissible = true := by
  simp [Params.admissible, chosenParams]

/-- The configuration of the machine at reset: open, and admitted (R9). -/
def chosen : Configuration := .admitted chosenParams chosenParams_admissible

/-- Open (R64, R230, D20, ID14): the order of the steps. No body: nothing can be proved of it, so a claim about `step` is
a claim about every order (log entry 1). -/
opaque foregroundOrder : AccessOrder

end Config

end Sys2Proof
end

