-- ==== Sys2Proof/Syntax.lean ====
section
/-! DEFINITION. The ten operations of the block (spec 30_encoding.md R84), one constructor for each row of the table. -/

namespace Sys2Proof

/-- An operation with its operands (R83): only WR_CMD and RD_SENT have one. -/
inductive Instr where
  /-- TICK_RISE: the alarm expiry in state LOW (R100). -/
  | tickRise
  /-- TICK_FALL: the alarm expiry in state HIGH (R101). -/
  | tickFall
  /-- RD_STATUS: read the pending flag (R180). -/
  | rdStatus
  /-- RD_TIME: read the current clock (R181). -/
  | rdTime
  /-- RD_TAKE: take the pending flag and the clock in one step (R182). -/
  | rdTake
  /-- WR_CMD: clear the flag and/or latch the clock; `d` is the write data (R183). -/
  | wrCmd (d : Word)
  /-- RD_SNAP: read the SNAP latch (R184). -/
  | rdSnap
  /-- RD_CSUM: read the checksum of the sentence for `snap` (R185). -/
  | rdCsum
  /-- RD_LEN: read the sentence length (R186). -/
  | rdLen
  /-- RD_SENT: read byte `i` of the sentence for `snap` (R187); `i = A[6:0]`. -/
  | rdSent (i : BitVec 7)
deriving DecidableEq, Repr

/-- Whether the operation is an alarm expiry (format TK, R82) and not a foreground access (format FG, R81). -/
def Instr.isTick : Instr → Bool
  | .tickRise => true
  | .tickFall => true
  | .rdStatus => false
  | .rdTime => false
  | .rdTake => false
  | .wrCmd _ => false
  | .rdSnap => false
  | .rdCsum => false
  | .rdLen => false
  | .rdSent _ => false

/-- Whether the operation is a bus read, which returns a word (R81). -/
def Instr.isRead : Instr → Bool
  | .tickRise => false
  | .tickFall => false
  | .rdStatus => true
  | .rdTime => true
  | .rdTake => true
  | .wrCmd _ => false
  | .rdSnap => true
  | .rdCsum => true
  | .rdLen => true
  | .rdSent _ => true

end Sys2Proof
end

