-- ==== Sys2Proof/WellFormed.lean ====
section
/-! DEFINITION. The operand values the encoding admits (spec 30_encoding.md R83, R84). -/

namespace Sys2Proof

/-- The only check there is: the SENT index of RD_SENT is at most 66 (R83, R84). -/
def Instr.wellFormed : Instr → Bool
  | .tickRise => true
  | .tickFall => true
  | .rdStatus => true
  | .rdTime => true
  | .rdTake => true
  | .wrCmd _ => true
  | .rdSnap => true
  | .rdCsum => true
  | .rdLen => true
  | .rdSent i => decide (i.toNat < Config.sentLen)

end Sys2Proof
end

