-- ==== Sys2Proof/Decode.lean ====
section
/-! DEFINITION. The decoder of operation words (spec 30_encoding.md R85), total on every ten-bit word, and the encoder
(R81, R82, R84). -/

namespace Sys2Proof

/-- What a word decodes to (R85). -/
inductive Decoded where
  /-- An operation. -/
  | instr (i : Instr)
  /-- An illegal FG word: it raises BusFault (R86, R221). -/
  | busFault
  /-- A reserved TK word: refused (R86, R222 b). -/
  | reserved
deriving DecidableEq, Repr

/-- A word of format FG (R81): `F = 0`, the direction `W`, the offset `A`. -/
def fgWord (w : Bool) (a : Offset) : OpWord := 0#1 ++ BitVec.ofBool w ++ a

/-- A word of format TK (R82): `F = 1`, zeros, the state bit `H`. -/
def tkWord (h : Bool) : OpWord := 1#1 ++ 0#8 ++ BitVec.ofBool h

/-- Field `F`, bit 9: 1 in format TK, 0 in format FG (R80). -/
def fieldF (op : OpWord) : Bool := op.getLsbD 9

/-- Field `W`, bit 8 of format FG: 1 is a write (R81). -/
def fieldW (op : OpWord) : Bool := op.getLsbD 8

/-- Field `A`, bits 7:0 of format FG: the word offset (R81). -/
def fieldA (op : OpWord) : Offset := op.extractLsb' 0 8

/-- Bits 8:1 of format TK, which are 0 in every word the block forms (R82). -/
def fieldZero (op : OpWord) : BitVec 8 := op.extractLsb' 1 8

/-- Field `H`, bit 0 of format TK: the value of `high10` at the expiry (R82). -/
def fieldH (op : OpWord) : Bool := op.getLsbD 0

/-- The SENT index `A[6:0]` of an offset (R83). -/
def sentIndex (a : Offset) : BitVec 7 := a.extractLsb' 0 7

/-- Decode an FG read at offset `a` (R85). -/
def decodeRead (a : Offset) : Decoded :=
  if a = 0x00#8 then .instr .rdStatus
  else if a = 0x01#8 then .instr .rdTime
  else if a = 0x02#8 then .instr .rdTake
  else if a = 0x04#8 then .instr .rdSnap
  else if a = 0x05#8 then .instr .rdCsum
  else if a = 0x06#8 then .instr .rdLen
  else if a.getLsbD 7 && decide ((sentIndex a).toNat < Config.sentLen) then .instr (.rdSent (sentIndex a))
  else .busFault

/-- Decode an FG write of `d` at offset `a`: only CMD is writable (R85). -/
def decodeWrite (a : Offset) (d : Word) : Decoded :=
  if a = 0x03#8 then .instr (.wrCmd d) else .busFault

/-- The decoder of R85. The write data `d` stands beside the word (R81); only a write uses it. -/
def decode (op : OpWord) (d : Word) : Decoded :=
  if fieldF op then
    if fieldZero op = 0#8 then
      if fieldH op then .instr .tickFall else .instr .tickRise
    else .reserved
  else if fieldW op then decodeWrite (fieldA op) d
  else decodeRead (fieldA op)

/-- An operation word and, for a write, its data operand (R81). -/
structure Encoded where
  op : OpWord
  data : Option Word
deriving DecidableEq, Repr

/-- The word of each operation, from the formats of R81 and R82 and the map of R84. -/
def encode : Instr → Encoded
  | .tickRise => { op := tkWord false, data := none }
  | .tickFall => { op := tkWord true, data := none }
  | .rdStatus => { op := fgWord false 0x00#8, data := none }
  | .rdTime => { op := fgWord false 0x01#8, data := none }
  | .rdTake => { op := fgWord false 0x02#8, data := none }
  | .wrCmd d => { op := fgWord true 0x03#8, data := some d }
  | .rdSnap => { op := fgWord false 0x04#8, data := none }
  | .rdCsum => { op := fgWord false 0x05#8, data := none }
  | .rdLen => { op := fgWord false 0x06#8, data := none }
  | .rdSent i => { op := fgWord false (1#1 ++ i), data := none }

/-- The instruction of a decoder's answer; none where the word names no operation. -/
def Decoded.toInstr? : Decoded → Option Instr
  | .instr i => some i
  | .busFault => none
  | .reserved => none

/-- The number of ten-bit words (R80). -/
abbrev opWordCount : Nat := 1024

/-- The opcode table gives an operation two bytes. The word is in bits 9:0, bits 15:10 must be 0, and any bits from 16
on are the data operand `d` that stands beside the word. DESIGN CHOICE, log entry 8: R81 gives `d` no place. -/
def splitTableWord (nbits w : Nat) : Nat × Word :=
  let v := w % 2 ^ nbits
  (v % 65536, BitVec.ofNat 32 (v / 65536))

/-- The instruction the decoder reads from a word numbered as the opcode table numbers it. A number that is no ten-bit
word is refused (R80). -/
def decodeTableWord (nbits w : Nat) : Option Instr :=
  let (op, d) := splitTableWord nbits w
  if op < opWordCount then (decode (BitVec.ofNat 10 op) d).toInstr? else none

end Sys2Proof
end

