-- ==== Sys2Proof/Machine/State.lean ====
section
/-! DEFINITION. The state of the block (spec 10_state.md R20), the model's own fields for what the spec places in the
environment and at the interface, the reasons a step stops, and reset (70_reset_and_hazards.md R250). -/

namespace Sys2Proof.Machine

/-- A record of a faulted foreground access: the operation word, and the write data or none for a read (R221). -/
structure FaultRecord where
  op : OpWord
  data : Option Word
deriving DecidableEq, Repr

/-- One step the outside world has ordered (R64, R69): the alarm environment's expiry or the foreground's access. -/
inductive Event where
  /-- The alarm expires; the block forms the TK word from its own `high10` (R82). -/
  | expiry
  /-- `BusRead(A)` with an access of `width` bits (R13, R50, R62). -/
  | busRead (offset : Offset) (width : Nat)
  /-- `BusWrite(A, d)` with an access of `width` bits (R13, R50, R62). -/
  | busWrite (offset : Offset) (width : Nat) (data : Word)
  /-- A step named by its operation word, as models, tables and tests name it (R80); `word` must have ten bits. -/
  | namedWord (word : Nat) (data : Word)
deriving DecidableEq, Repr

/-- Where an infinite order of steps has come to: `issued` accesses of alarm interval `interval` are done. -/
structure OrderPosition where
  interval : Nat
  issued : Nat
deriving DecidableEq, Repr

/-- The state. The first eight fields are the block state of R20 (`clock` is `hour`, `minute`, `second`); the last five
are the model's own (log entries 1 to 4). -/
structure State where
  /-- PulseState of the 10 Hz group: `false` is LOW, `true` is HIGH (R21). -/
  high10 : Bool
  /-- PulseState of the 1 Hz group (R22). -/
  high1 : Bool
  /-- SubCounter: 10 Hz rising edges since the last 1 Hz event, that event's edge excluded (R23). -/
  sub : Fin 10
  /-- VirtualClock: `hour`, `minute`, `second` (R24, R25, R26). -/
  clock : TimeOfDay
  /-- PendingSentenceFlag (R27). -/
  pending : Bool
  /-- The SNAP latch (R28). -/
  snap : TimeOfDay
  /-- The interval last programmed into the alarm source, in microseconds (R29). -/
  reload : Nat
  /-- The fault records, oldest first (R30, R221). -/
  faults : List FaultRecord
  /-- The open parameters, fixed for the life of the model (R9, R42, R222 a). Model's own field. -/
  config : Configuration
  /-- The time of the latest expiry in microseconds, 0 before the first: environment state (R229). Model's own field. -/
  alarmBase : Nat
  /-- The steps ordered next by the outside world, first one first (R64, R66, R69). Model's own field. -/
  schedule : List Event
  /-- Where the open order, which goes on after `schedule`, has come to (R230, R239). Model's own field. -/
  position : OrderPosition
  /-- What the foreground's latest access returned, if it returned a value (R13, R81, R221). Model's own field. -/
  busResult : Option Word
deriving DecidableEq, Repr

/-- The reasons to stop with a fault. There is none: "No tick step and no operation ... can fail" (R220), and a BusFault
"stops nothing" (R224): it is recorded in `State.faults` by a next state (log entry 5). Nothing raises one; safe. -/
inductive Fault where
deriving DecidableEq, Repr

/-- The reasons to stop with a refusal; a refusal marks the whole run refused (R222). -/
inductive Refusal where
  /-- `exec` raises it for an instruction that has no meaning yet; none is left. Safe. -/
  | notModelled (mnemonic : String)
  /-- `step` raises it at every step when the configuration is outside the bounds of R9 (R222 a). Safe. -/
  | configurationOutOfBounds
  /-- `step` raises it for a TK word with `op[8:1] ≠ 0` (R86, R222 b). Safe. -/
  | reservedTickWord
  /-- `step` raises it for a foreground access of another width than 32 bits (R62, R222 c). Safe. -/
  | accessWidth
  /-- `step` raises it for a named word that has not ten bits (R80). Safe. -/
  | notAnOperationWord
  /-- TICK_RISE raises it in state HIGH and TICK_FALL in state LOW: the block forms the TK word from its own state and
  never forms that one ("Enabled only when", R82, R100, R101). Safe. -/
  | tickNotEnabled
deriving DecidableEq, Repr

/-- The state right after reset of a block with this configuration (R250; R229 and R251 for the environment's time). -/
def State.resetWith (c : Configuration) : State :=
  { high10 := false
    high1 := false
    sub := 0
    clock := Config.seed
    pending := false
    snap := Config.seed
    reload := c.params.initialAlarmUs
    faults := []
    config := c
    alarmBase := 0
    schedule := []
    position := { interval := 0, issued := 0 }
    busResult := none }

/-- The state right after reset (R250) of the machine whose open parameters are the opaque constants of Config. -/
def State.reset : State := State.resetWith Config.chosen

end Sys2Proof.Machine
end

