-- ==== Sys2Proof/Machine/Ops.lean ====
section
/-! DEFINITION. The named operations on the state: the primitives of the tick domain (spec 00_scope.md R14), the writes of
the foreground domain (10_state.md R38), the alarm environment (60_exceptions.md R229), the pins (10_state.md R31) and
taking a BusFault (60_exceptions.md R221). -/

namespace Sys2Proof.Machine

/-- The outcome of a step of this machine. -/
abbrev StepOutcome : Type := Host.Outcome State Fault Refusal

/-! ### The tick domain's writes (R14, R38) -/

/-- `drive10(b)`: the 10 Hz group to the level for `b` (R14). -/
def State.drive10 (s : State) (b : Bool) : State := { s with high10 := b }

/-- `drive1(b)`: the 1 Hz group to the level for `b` (R14). -/
def State.drive1 (s : State) (b : Bool) : State := { s with high1 := b }

/-- `reload(I)`: program the alarm source's next interval (R14, R29). -/
def State.programReload (s : State) (us : Nat) : State := { s with reload := us }

/-- Store the SubCounter (R23). -/
def State.setSub (s : State) (n : Fin 10) : State := { s with sub := n }

/-- Store the VirtualClock (R24 to R26). -/
def State.setClock (s : State) (t : TimeOfDay) : State := { s with clock := t }

/-- Store the PendingSentenceFlag: set by the tick domain, cleared by the foreground (R27, R38). -/
def State.setPending (s : State) (b : Bool) : State := { s with pending := b }

/-! ### The foreground domain's writes -/

/-- Store the SNAP latch (R28). -/
def State.setSnap (s : State) (t : TimeOfDay) : State := { s with snap := t }

/-- What the access in progress returns to the foreground: a word, or nothing (R13, R81, R221). -/
def State.setBusResult (s : State) (r : Option Word) : State := { s with busResult := r }

/-! ### The alarm environment (R229) -/

/-- The time of the next expiry: the interval last programmed, counted from the latest expiry (R229). -/
def State.nextExpiry (s : State) : Nat := s.alarmBase + s.reload

/-- The alarm expires: its time becomes the time the next interval is counted from (R229, R261). -/
def State.expireAlarm (s : State) : State := { s with alarmBase := s.nextExpiry }

/-! ### Parameters (R9) -/

/-- `PULSE_WIDTH_US` of this machine. -/
def State.pulseWidthUs (s : State) : Nat := s.config.params.pulseWidthUs

/-- The inactive part of a 10 Hz period, `PERIOD_US - PULSE_WIDTH_US` (R101, R263). -/
def State.restOfPeriodUs (s : State) : Nat := Config.periodUs - s.pulseWidthUs

/-! ### Outputs as functions of the state (R31, R32) -/

/-- `ACTIVE`: the logic level of a group, active is 1 (R31, D10). -/
def activeLevel (b : Bool) : BitVec 1 := BitVec.ofBool b

/-- The pins of the 10 Hz group, `out10[0..N10-1]` (R31). -/
def State.out10 (s : State) : List (BitVec 1) := List.replicate s.config.params.n10 (activeLevel s.high10)

/-- The pins of the 1 Hz group, `out1[0..N1-1]` (R31). -/
def State.out1 (s : State) : List (BitVec 1) := List.replicate s.config.params.n1 (activeLevel s.high1)

/-- The output to the alarm source (R32). -/
def State.alarmOut (s : State) : Nat := s.reload

/-! ### Steps shared by the operations -/

/-- A read that returns `d` in its own step (R69 b, R81). -/
def State.returnWord (s : State) (d : Word) : State := s.setBusResult (some d)

/-- An access that returns no word: a write, or a faulted access (R81, R221). -/
def State.returnNothing (s : State) : State := s.setBusResult none

/-- Append a record to the sticky list of faults (R221, R224). -/
def State.recordFault (s : State) (r : FaultRecord) : State := { s with faults := s.faults ++ [r] }

/-- The record of a faulted access: the word, and the data only where the word is a write (R221). -/
def faultRecord (op : OpWord) (d : Word) : FaultRecord :=
  { op := op, data := if fieldW op then some d else none }

/-- TAKING A BUSFAULT (R221, R224): the access performs nothing, a read returns no value, the record is appended, and
the machine goes on. Nothing is saved and there is nothing to return from (R231, R232). -/
def takeBusFault (op : OpWord) (d : Word) (s : State) : State :=
  s.returnNothing.recordFault (faultRecord op d)

end Sys2Proof.Machine
end

