-- ==== Sys2Proof/Machine/Operands.lean ====
section
/-! DEFINITION. Operand fields and the assembly of read results (spec 30_encoding.md R83; 20_memory.md R53 to R60). -/

namespace Sys2Proof.Machine

/-- `CLEAR = d[0]` of the CMD write data (R83). -/
def cmdClear (d : Word) : Bool := d.getLsbD 0

/-- `LATCH = d[1]` of the CMD write data (R83). -/
def cmdLatch (d : Word) : Bool := d.getLsbD 1

/-- STATUS: bit 0 is `pending`, bits 31:1 are 0 (R53). -/
def statusWord (pending : Bool) : Word := (BitVec.ofBool pending).setWidth 32

/-- `TIMEWORD`: the time layout of R54, second 5:0, minute 13:8, hour 20:16, other bits 0. -/
def timeWord (t : TimeOfDay) : Word :=
  0#11 ++ BitVec.ofNat 5 t.hour.val ++ 0#2 ++ BitVec.ofNat 6 t.minute.val ++ 0#2 ++ BitVec.ofNat 6 t.second.val

/-- The word a TAKE returns: the old flag in bit 31, bits 30:21 are 0, bits 20:0 in the time layout (R55, R182). -/
def takeWord (old : Bool) (t : TimeOfDay) : Word :=
  BitVec.ofBool old ++ 0#10 ++ (timeWord t).extractLsb' 0 21

/-- A byte in bits 7:0, bits 31:8 are 0 (R58, R60). -/
def byteWord (b : Byte) : Word := b.setWidth 32

/-- LEN: always 67 (R59). -/
def lenWord : Word := BitVec.ofNat 32 Config.sentLen

/-- The FG word of a SENT read at index `i` (R84, R187). -/
def sentReadWord (i : BitVec 7) : OpWord := (encode (.rdSent i)).op

end Sys2Proof.Machine
end

