-- ==== Sys2Proof/Machine/Flags.lean ====
section
/-! DEFINITION. The counter and flag computations (spec 10_state.md R36; 40_pulse_engine.md R100; 43_foreground_interface.md
R182, R183). -/

namespace Sys2Proof.Machine

/-- The count a rising edge reaches, 1 to 10; the value 10 is never stored (R100, R102). -/
def risingCount (sub : Fin 10) : Nat := sub.val + 1

/-- Whether the rising edge that reaches count `n` is the 1 Hz event (R100, R102). -/
def isOneHzEvent (n : Nat) : Bool := decide (n = Config.divide)

/-- The SubCounter after a rising edge that reaches count `n`: 0 at the 1 Hz event, else `n` (R100). -/
def subAfterRise (n : Nat) : Fin 10 := if isOneHzEvent n then 0 else Fin.ofNat 10 n

/-- `high1` after a rising edge: set on the 1 Hz event, cleared at count 1, else kept (R100, R103). -/
def high1AfterRise (n : Nat) (old : Bool) : Bool :=
  if isOneHzEvent n then true else if n = 1 then false else old

/-- `pending` after a rising edge: set on the 1 Hz event, else kept; an overrun records nothing (R100, R104). -/
def pendingAfterRise (n : Nat) (old : Bool) : Bool := if isOneHzEvent n then true else old

/-- `pending` after a TAKE: cleared (R182). -/
def pendingAfterTake : Bool := false

/-- `pending` after a write of `d` to CMD: cleared by CLEAR, else kept (R183). -/
def pendingAfterCmd (d : Word) (old : Bool) : Bool := if cmdClear d then false else old

end Sys2Proof.Machine
end

