-- ==== Sys2Proof/Machine/Formatter.lean ====
section
/-! DEFINITION. The sentence formatter and checksum generator (spec 42_sentence_formatter.md R150 to R160): pure functions
of a clock value. The byte of a character is its ASCII code (GK1, log entry 13). -/

namespace Sys2Proof.Machine

/-- DIGIT: one decimal digit, the characters '0' to '9' (R150). -/
def digit (n : Nat) : Byte := 0x30#8 + BitVec.ofNat 8 n

/-- FMT2: a two-digit zero-padded decimal field (R151). -/
def fmt2 (v : Nat) : List Byte := [digit (v / 10), digit (v % 10)]

/-- HEXDIGIT: one upper-case hexadecimal digit (R152). -/
def hexDigit (n : Nat) : Byte :=
  if n < 10 then 0x30#8 + BitVec.ofNat 8 n else 0x41#8 + BitVec.ofNat 8 (n - 10)

/-- HEX2: the two-digit checksum field, most significant digit first (R153). -/
def hex2 (c : Byte) : List Byte := [hexDigit (c.extractLsb' 4 4).toNat, hexDigit (c.extractLsb' 0 4).toNat]

/-- The running exclusive-OR of a byte sequence, from 0 (R154). -/
def xorBytes : List Byte → Byte
  | [] => 0#8
  | b :: bs => b ^^^ xorBytes bs

/-- CHECKSUM: the exclusive-OR of bytes `PAYLOAD_FIRST` to `PAYLOAD_LAST` of a sentence (R154). -/
def checksum (q : List Byte) : Byte :=
  xorBytes ((q.drop Config.payloadFirst).take (Config.payloadLast + 1 - Config.payloadFirst))

/-- The start delimiter `$` (R155). -/
def startDelimiter : Byte := 0x24#8

/-- The checksum delimiter `*` (R155). -/
def checksumDelimiter : Byte := 0x2A#8

/-- The line terminator CR LF (R155). -/
def lineTerminator : List Byte := [0x0D#8, 0x0A#8]

/-- `GPRMC,`: payload bytes 1 to 6 (R156, R158). -/
def talkerField : List Byte := [0x47#8, 0x50#8, 0x52#8, 0x4D#8, 0x43#8, 0x2C#8]

/-- `.00,A,`: payload bytes 13 to 18, the fixed fractional second and the status (R156, R158). -/
def statusFields : List Byte := [0x2E#8, 0x30#8, 0x30#8, 0x2C#8, 0x41#8, 0x2C#8]

/-- `3000.0000,N,`: payload bytes 19 to 30 (R156, R158). -/
def latitudeFields : List Byte :=
  [0x33#8, 0x30#8, 0x30#8, 0x30#8, 0x2E#8, 0x30#8, 0x30#8, 0x30#8, 0x30#8, 0x2C#8, 0x4E#8, 0x2C#8]

/-- `12000.0000,E,`: payload bytes 31 to 43 (R156, R158). -/
def longitudeFields : List Byte :=
  [0x31#8, 0x32#8, 0x30#8, 0x30#8, 0x30#8, 0x2E#8, 0x30#8, 0x30#8, 0x30#8, 0x30#8, 0x2C#8, 0x45#8, 0x2C#8]

/-- `0.0,0.0,`: payload bytes 44 to 51 (R156, R158). -/
def motionFields : List Byte := [0x30#8, 0x2E#8, 0x30#8, 0x2C#8, 0x30#8, 0x2E#8, 0x30#8, 0x2C#8]

/-- `010124,,,A`: payload bytes 52 to 61, the date, two empty fields and the mode (R156, R158). -/
def dateFields : List Byte :=
  [0x30#8, 0x31#8, 0x30#8, 0x31#8, 0x32#8, 0x34#8, 0x2C#8, 0x2C#8, 0x2C#8, 0x41#8]

/-- The fixed payload after the time, bytes 13 to 61 (R156, R158). -/
def fixedTail : List Byte := statusFields ++ latitudeFields ++ longitudeFields ++ motionFields ++ dateFields

/-- The payload of a sentence, bytes 1 to 61 (R160). -/
def payload (t : TimeOfDay) : List Byte :=
  talkerField ++ fmt2 t.hour.val ++ fmt2 t.minute.val ++ fmt2 t.second.val ++ fixedTail

/-- RENDER: the whole framed sentence of a clock value (R155, R156, R160). -/
def render (t : TimeOfDay) : List Byte :=
  [startDelimiter] ++ payload t ++ [checksumDelimiter] ++ hex2 (xorBytes (payload t)) ++ lineTerminator

end Sys2Proof.Machine
end

