-- ==== Sys2Proof/Machine/Foreground.lean ====
section
/-! DEFINITION. The foreground operations (spec 43_foreground_interface.md R180 to R187), each one atomic step (R64). -/

namespace Sys2Proof.Machine

/-- RD_STATUS: read the pending flag (R180). -/
def execRdStatus (s : State) : StepOutcome := .next (s.returnWord (statusWord s.pending))

/-- RD_TIME: read the current clock (R181). -/
def execRdTime (s : State) : StepOutcome := .next (s.returnWord (timeWord s.clock))

/-- RD_TAKE: return the old flag and the clock, clear the flag, and load SNAP if it was set, in one step (R182). -/
def execRdTake (s : State) : StepOutcome :=
  let old := s.pending
  .next (((s.returnWord (takeWord old s.clock)).setPending pendingAfterTake).setSnap
    (if old then s.clock else s.snap))

/-- WR_CMD: LATCH copies the clock into SNAP, CLEAR clears the flag (R183). -/
def execWrCmd (d : Word) (s : State) : StepOutcome :=
  .next ((s.returnNothing.setSnap (if cmdLatch d then s.clock else s.snap)).setPending
    (pendingAfterCmd d s.pending))

/-- RD_SNAP: read the SNAP latch (R184). -/
def execRdSnap (s : State) : StepOutcome := .next (s.returnWord (timeWord s.snap))

/-- RD_CSUM: read the checksum of the sentence for SNAP (R185). -/
def execRdCsum (s : State) : StepOutcome := .next (s.returnWord (byteWord (checksum (render s.snap))))

/-- RD_LEN: read the sentence length (R186). -/
def execRdLen (s : State) : StepOutcome := .next (s.returnWord lenWord)

/-- RD_SENT: read byte `i` of the sentence for SNAP (R187). The decoder gives `i ≤ 66` only; at or beyond `SENT_LEN`
there is no byte, and the access is the BusFault that R52 gives it (log entry 16). -/
def execRdSent (i : BitVec 7) (s : State) : StepOutcome :=
  match (render s.snap)[i.toNat]? with
  | some b => .next (s.returnWord (byteWord b))
  | none => .next (takeBusFault (sentReadWord i) 0 s)

end Sys2Proof.Machine
end

