-- ==== Sys2Proof/Machine/Clock.lean ====
section
/-! DEFINITION. The Virtual Clock's one operation, ADVANCE (spec 41_virtual_clock.md R130), and its seconds-of-day form
(R131). -/

namespace Sys2Proof.Machine

/-- ADVANCE: one second with carry; hour 23 wraps to 0 and nothing higher changes (R130). -/
def advance (t : TimeOfDay) : TimeOfDay :=
  if t.second.val < 59 then { t with second := Fin.ofNat 60 (t.second.val + 1) }
  else if t.minute.val < 59 then { t with minute := Fin.ofNat 60 (t.minute.val + 1), second := 0 }
  else if t.hour.val < 23 then { hour := Fin.ofNat 24 (t.hour.val + 1), minute := 0, second := 0 }
  else { hour := 0, minute := 0, second := 0 }

/-- The clock after a rising edge: advanced where it is the 1 Hz event, else unchanged (R100, R132). -/
def clockAfterRise (event : Bool) (t : TimeOfDay) : TimeOfDay := if event then advance t else t

/-- `tod`: the seconds of the day, in [0, 86400) (R131). -/
def secondsOfDay (t : TimeOfDay) : Nat := 3600 * t.hour.val + 60 * t.minute.val + t.second.val

/-- The seconds of a day (R131). -/
abbrev secondsPerDay : Nat := 86400

/-- The fields of a number of seconds of the day (R131). -/
def timeOfSeconds (n : Nat) : TimeOfDay :=
  { hour := Fin.ofNat 24 (n / 3600), minute := Fin.ofNat 60 (n / 60 % 60), second := Fin.ofNat 60 (n % 60) }

/-- The clock after `n` further 1 Hz events (R132, R134). -/
def advanceTimes : Nat → TimeOfDay → TimeOfDay
  | 0, t => t
  | n + 1, t => advanceTimes n (advance t)

end Sys2Proof.Machine
end

