-- ==== Sys2Proof/Machine/Pulse.lean ====
section
/-! DEFINITION. The Pulse Engine: the two tick-domain operations (spec 40_pulse_engine.md R100, R101). -/

namespace Sys2Proof.Machine

/-- The writes of a TICK_RISE, all together (R12, R100, R105), with the alarm environment's expiry (R229). -/
def risingEdge (s : State) : State :=
  let n := risingCount s.sub
  ((((((s.expireAlarm.drive10 true).programReload s.pulseWidthUs).setSub (subAfterRise n)).drive1
    (high1AfterRise n s.high1)).setClock (clockAfterRise (isOneHzEvent n) s.clock)).setPending
    (pendingAfterRise n s.pending))

/-- The writes of a TICK_FALL, all together (R12, R101), with the alarm environment's expiry (R229). -/
def fallingEdge (s : State) : State :=
  (s.expireAlarm.drive10 false).programReload s.restOfPeriodUs

/-- TICK_RISE: the alarm expiry in state LOW (R100). It requires `high10 = false`: in state HIGH the block forms the
other TK word, and this one is refused (log entry 6). -/
def execTickRise (s : State) : StepOutcome :=
  if s.high10 then .refused .tickNotEnabled else .next (risingEdge s)

/-- TICK_FALL: the alarm expiry in state HIGH (R101). It requires `high10 = true`: in state LOW the block forms the
other TK word, and this one is refused (log entry 6). -/
def execTickFall (s : State) : StepOutcome :=
  if s.high10 then .next (fallingEdge s) else .refused .tickNotEnabled

end Sys2Proof.Machine
end

