-- ==== Sys2Proof/Machine/Dispatch.lean ====
section
/-! DEFINITION. One arm for each operation of the table (spec 30_encoding.md R84). -/

namespace Sys2Proof.Machine

def exec (i : Instr) (s : State) : Host.Outcome State Fault Refusal :=
  match i with
  | .tickRise => Sys2Proof.Machine.execTickRise s
  | .tickFall => Sys2Proof.Machine.execTickFall s
  | .rdStatus => Sys2Proof.Machine.execRdStatus s
  | .rdTime => Sys2Proof.Machine.execRdTime s
  | .rdTake => Sys2Proof.Machine.execRdTake s
  | .wrCmd d => Sys2Proof.Machine.execWrCmd d s
  | .rdSnap => Sys2Proof.Machine.execRdSnap s
  | .rdCsum => Sys2Proof.Machine.execRdCsum s
  | .rdLen => Sys2Proof.Machine.execRdLen s
  | .rdSent k => Sys2Proof.Machine.execRdSent k s

end Sys2Proof.Machine
end

