-- ==== Sys2Proof/Machine/Fetch.lean ====
section
/-! DEFINITION. How the operation word of the next step comes about (spec 30_encoding.md R80 to R82): an alarm expiry, whose
word the block forms from its own state, or a bus access, whose fields the foreground gives; and the order of the steps
(20_memory.md R64, 60_exceptions.md R230, R239), which every function here takes as its argument `o`. -/

namespace Sys2Proof.Machine

/-- What the next step is to perform. -/
inductive Fetched where
  /-- An operation word, with the write data beside it. -/
  | word (op : OpWord) (data : Word)
  /-- There is no such step: refused. -/
  | refused (r : Refusal)
deriving DecidableEq, Repr

/-- The TK word the block forms from its own state at an expiry: `H = high10` (R82). -/
def tickWord (s : State) : OpWord := tkWord s.high10

/-- The only access width there is, in bits (R50, R62). -/
abbrev accessBits : Nat := 32

/-- A bus access of the right width; any other is refused, whatever its offset (R62, R222 c). -/
def busAccess (width : Nat) (op : OpWord) (d : Word) : Fetched :=
  if width = accessBits then .word op d else .refused .accessWidth

/-- The word of one ordered step (R81, R82). -/
def fetchEvent (s : State) : Event → Fetched
  | .expiry => .word (tickWord s) 0
  | .busRead a width => busAccess width (fgWord false a) 0
  | .busWrite a width d => busAccess width (fgWord true a) d
  | .namedWord w d => if w < opWordCount then .word (BitVec.ofNat 10 w) d else .refused .notAnOperationWord

/-- The step an access is. -/
def accessEvent : Access → Event
  | .read a => .busRead a accessBits
  | .write a d => .busWrite a accessBits d

/-- The step an order has at a position: the interval's next access, or after its last access the expiry that ends the
interval (R229, R239). -/
def OrderPosition.event (o : AccessOrder) (p : OrderPosition) : Event :=
  match (o p.interval)[p.issued]? with
  | some a => accessEvent a
  | none => .expiry

/-- The position after that step. -/
def OrderPosition.after (o : AccessOrder) (p : OrderPosition) : OrderPosition :=
  match (o p.interval)[p.issued]? with
  | some _ => { p with issued := p.issued + 1 }
  | none => { interval := p.interval + 1, issued := 0 }

/-- The step ordered next: the first of `schedule`, and after its last the order's own (log entry 1). -/
def nextEvent (o : AccessOrder) (s : State) : Event :=
  match s.schedule with
  | e :: _ => e
  | [] => s.position.event o

/-- The operation word of the next step. -/
def fetch (o : AccessOrder) (s : State) : Fetched := fetchEvent s (nextEvent o s)

/-- The position after the next step: an entry of `schedule` does not move it. -/
def nextPosition (o : AccessOrder) (s : State) : OrderPosition :=
  match s.schedule with
  | _ :: _ => s.position
  | [] => s.position.after o

/-- The ordered step is consumed by its own step (R227). -/
def State.consume (o : AccessOrder) (s : State) : State :=
  { s with schedule := s.schedule.tail, position := nextPosition o s }

/-- The `high10` under which the block forms the word `op` at an expiry: its bit `H` for the two tick words; any other
word needs nothing of `high10` (R82). -/
def high10ForWord (op : Nat) (old : Bool) : Bool :=
  if op = 0x200 then false else if op = 0x201 then true else old

/-- Order the step whose table word is `w` next. For a tick word the state that selects it is set too (R82; log entry 8). -/
def placeWord (s : State) (nbits w : Nat) : State :=
  let (op, d) := splitTableWord nbits w
  { s with schedule := .namedWord op d :: s.schedule, high10 := high10ForWord op s.high10 }

end Sys2Proof.Machine
end

