-- ==== Sys2Proof/Machine/Cycle.lean ====
section
/-! DEFINITION. One step of the machine: the configuration check (spec 60_exceptions.md R222 a), the decoding of the next
operation word (30_encoding.md R85) and its meaning. -/

namespace Sys2Proof.Machine

/-- Perform what a word decodes to in state `s` (R85, R221, R222 b). -/
def performDecoded (op : OpWord) (d : Word) (s : State) : StepOutcome :=
  match decode op d with
  | .instr i => exec i s
  | .busFault => .next (takeBusFault op d s)
  | .reserved => .refused .reservedTickWord

/-- Perform the next step in state `s`, from which it has already been taken. -/
def performFetched (f : Fetched) (s : State) : StepOutcome :=
  match f with
  | .word op d => performDecoded op d s
  | .refused r => .refused r

/-- One atomic step (R64) of the block under the order `o` of steps. A refused configuration refuses every step of the run (R222). -/
def cycle (o : AccessOrder) (s : State) : StepOutcome :=
  match s.config with
  | .rejected _ _ => .refused .configurationOutOfBounds
  | .admitted _ _ => performFetched (fetch o s) (s.consume o)

end Sys2Proof.Machine
end

