-- ==== Sys2Proof/Machine/Step.lean ====
section
/-! DEFINITION. The step function, and the placing of an operation where the next step takes it from. -/

namespace Sys2Proof.Machine

/-- One step of the block: one alarm expiry or one foreground access (spec 20_memory.md R64), in an order that is open
(R230; log entry 1). -/
def step (s : State) : Host.Outcome State Fault Refusal := cycle Config.foregroundOrder s

/-- `s` with the operation of table word `w` ordered as the very next step (log entry 8). -/
def State.withFetchWord (s : State) (nbits w : Nat) : State := placeWord s nbits w

end Sys2Proof.Machine
end

