-- ==== Sys2Proof/Machine/Listing.lean ====
section
/-! DEFINITION. The listing forms of spec 30_encoding.md R87, as the ordered steps they stand for. Variables, `if` and loops
belong to the foreground agent, which is outside the block. -/

namespace Sys2Proof.Machine.Listing

/-- `tick`: one alarm expiry (R87). -/
def tick : Event := .expiry

/-- A 32-bit bus read of the register at an offset (R13, R87). -/
def rd (a : Offset) : Event := .busRead a accessBits

/-- `rd STATUS` (R87). -/
def rdStatus : Event := rd 0x00#8

/-- `rd TIME` (R87). -/
def rdTime : Event := rd 0x01#8

/-- `rd TAKE` (R87). -/
def rdTake : Event := rd 0x02#8

/-- `rd SNAP` (R87). -/
def rdSnap : Event := rd 0x04#8

/-- `rd CSUM` (R87). -/
def rdCsum : Event := rd 0x05#8

/-- `rd LEN` (R87). -/
def rdLen : Event := rd 0x06#8

/-- `rd SENT, i`: offset 0x80 + i (R87). -/
def rdSent (i : BitVec 7) : Event := rd (1#1 ++ i)

/-- `wr CMD, d` (R87). -/
def wrCmd (d : Word) : Event := .busWrite 0x03#8 accessBits d

/-- `clear`: `wr CMD, 0x1` (R87). -/
def clear : Event := wrCmd 0x1#32

/-- `latch`: `wr CMD, 0x2` (R87). -/
def latch : Event := wrCmd 0x2#32

/-- `latchclear`: `wr CMD, 0x3` (R87). -/
def latchclear : Event := wrCmd 0x3#32

/-- `ticks n`: `tick` repeated `n` times (R87). -/
def ticks (n : Nat) : List Event := List.replicate n tick

/-- `cycle`: one 10 Hz period (R87). -/
def cycle : List Event := ticks 2

/-- `onesec`: ten 10 Hz periods (R87). -/
def onesec : List Event := ticks 20

/-- `readsent q`: `rd SENT, i` for `i` = 0 to 66 in order (R87). -/
def readsent : List Event := (List.range Config.sentLen).map fun i => rdSent (BitVec.ofNat 7 i)

end Sys2Proof.Machine.Listing
end

