-- ==== Sys2Proof/Safety.lean ====
section
/-! DEFINITION. What counts as a good state and a good order of steps (spec 60_exceptions.md R221, R222), and the terms the
statements use: which step comes next, runs and their fairness (R239), frames, the invariants of 10_state.md R39 and R40, and the timeline of
40_pulse_engine.md R107 to R113. -/

namespace Sys2Proof.Machine

/-- A good state: no fault was recorded (R221) and the configuration is within its bounds (R222 a). -/
def State.good (s : State) : Bool := s.faults.isEmpty && s.config.isAdmitted

/-- The operation the next step performs, where it performs one. -/
def nextInstr (o : AccessOrder) (s : State) : Option Instr :=
  match fetch o s with
  | .word op d => (decode op d).toInstr?
  | .refused _ => none

/-- Whether the next step is a step of the tick domain. -/
def nextIsTick (o : AccessOrder) (s : State) : Bool :=
  match fetch o s with
  | .word op _ => fieldF op
  | .refused _ => false

/-- Whether the next step is a 1 Hz event: the TICK_RISE that finds `sub = 9` (R16, R102). -/
def nextIsOneHzEvent (o : AccessOrder) (s : State) : Bool := decide (nextInstr o s = some .tickRise) && decide (s.sub.val = 9)

/-- `n` steps under the order `o`, stopping at the first refusal. -/
def runUnder (o : AccessOrder) : Nat → State → StepOutcome
  | 0, s => .next s
  | n + 1, s =>
    match cycle o s with
    | .next t => runUnder o n t
    | .fault r => .fault r
    | .refused r => .refused r

/-- `n` steps of the machine: the host's `Host.Core.run` of `Sys2Proof.core` (`runSteps_eq_core_run`). -/
def runSteps (n : Nat) (s : State) : StepOutcome := runUnder Config.foregroundOrder n s

/-- How many of the next `n` steps under the order `o` have the property `p`. -/
def countSteps (o : AccessOrder) (p : State → Bool) : Nat → State → Nat
  | 0, _ => 0
  | n + 1, s =>
    (if p s then 1 else 0) +
      match cycle o s with
      | .next t => countSteps o p n t
      | .fault _ => 0
      | .refused _ => 0

/-- How many of the next `n` steps are 1 Hz events (R113). -/
def oneHzEvents (o : AccessOrder) (n : Nat) (s : State) : Nat := countSteps o (nextIsOneHzEvent o) n s

/-- How many of the next `n` steps are steps of the tick domain (R107). -/
def ticksIn (o : AccessOrder) (n : Nat) (s : State) : Nat := countSteps o (nextIsTick o) n s

/-- The foreground agent is scheduled infinitely often (R239). -/
def ForegroundFair (o : AccessOrder) : Prop := ∀ k, ∃ j, k ≤ j ∧ o j ≠ []

/-- The access `a` is ordered infinitely often (R239). -/
def Recurs (a : Access) (o : AccessOrder) : Prop := ∀ k, ∃ j, k ≤ j ∧ a ∈ o j

/-- Reset with `n` expiries ordered first, and no access among them (log entry 1). -/
def ticking (c : Configuration) (n : Nat) : State := { State.resetWith c with schedule := Listing.ticks n }

/-- The fields only the tick domain writes are equal (R38). -/
def SameTickDomain (s t : State) : Prop :=
  t.high10 = s.high10 ∧ t.high1 = s.high1 ∧ t.sub = s.sub ∧ t.clock = s.clock ∧ t.reload = s.reload

/-- The block state of R20 is equal. -/
def SameBlock (s t : State) : Prop :=
  SameTickDomain s t ∧ t.pending = s.pending ∧ t.snap = s.snap ∧ t.faults = s.faults

/-- The phase invariant: `high1` only with `sub = 0` (R39). -/
def PhaseInv (s : State) : Prop := s.high1 = true → s.sub = 0

/-- The reload invariant (R40). The model's `alarmBase` is 0 exactly before the first tick. -/
def ReloadInv (s : State) : Prop :=
  (s.alarmBase = 0 → s.high10 = false ∧ s.reload = s.config.params.initialAlarmUs) ∧
  (s.alarmBase ≠ 0 → s.high10 = true → s.reload = s.config.params.pulseWidthUs) ∧
  (s.alarmBase ≠ 0 → s.high10 = false → s.reload = Config.periodUs - s.config.params.pulseWidthUs)

/-- Where the block stands after `r` rising edges of the 10 Hz group since reset, whatever foreground accesses fell
between them: the phase and the times of R109 and R110, the counter of R111, the 1 Hz group of R112, the clock of R113. -/
def Timeline (r : Nat) (s : State) : Prop :=
  s.sub.val = r % 10 ∧
  secondsOfDay s.clock = (secondsOfDay Config.seed + r / 10) % secondsPerDay ∧
  (s.high1 = true ↔ 10 ≤ r ∧ r % 10 = 0) ∧
  (s.high10 = true → 1 ≤ r ∧
    s.alarmBase = s.config.params.initialAlarmUs + (r - 1) * Config.periodUs ∧
    s.reload = s.config.params.pulseWidthUs) ∧
  (s.high10 = false →
    (r = 0 ∧ s.alarmBase = 0 ∧ s.reload = s.config.params.initialAlarmUs) ∨
    (1 ≤ r ∧
      s.alarmBase = s.config.params.initialAlarmUs + (r - 1) * Config.periodUs + s.config.params.pulseWidthUs ∧
      s.reload = Config.periodUs - s.config.params.pulseWidthUs))

/-- Whether an ordered step is an alarm expiry. -/
def Event.isExpiry : Event → Bool
  | .expiry => true
  | .busRead _ _ => false
  | .busWrite _ _ _ => false
  | .namedWord _ _ => false

/-- Whether an ordered step is one the interface has: an expiry, or an access of 32 bits at any offset (R50, R62). -/
def Event.isInterface : Event → Bool
  | .expiry => true
  | .busRead _ w => decide (w = accessBits)
  | .busWrite _ w _ => decide (w = accessBits)
  | .namedWord _ _ => false

/-- The word an operation returns in state `s`, where it returns one (R81). -/
def returned (i : Instr) (s : State) : Option Word :=
  match exec i s with
  | .next t => t.busResult
  | .fault _ => none
  | .refused _ => none

end Sys2Proof.Machine
end

