-- ==== Sys2Proof/Certificates/Slice0/Obligations.lean ====
section
/-! DEFINITION. The statements about the model, each from the spec's numbered rules. Where a statement names `alarmBase`,
`schedule`, `position`, `busResult` or `config`, those are the model's own fields (log entries 1 to
4); `Config.foregroundOrder` is the open order of the steps, of which nothing is known, and `o` any order (log entry 1). -/

open Sys2Proof Sys2Proof.Machine

/-! ### Encoding -/

/-- The map of R84, on its ten rows (RD_SENT at its first and last index), and words of each other kind. -/
def Obligations.TableWordsDecode : Prop :=
  decode 0b1000000000#10 0 = .instr .tickRise ∧ decode 0b1000000001#10 0 = .instr .tickFall ∧
  decode 0b0000000000#10 0 = .instr .rdStatus ∧ decode 0b0000000001#10 0 = .instr .rdTime ∧
  decode 0b0000000010#10 0 = .instr .rdTake ∧ decode 0b0100000011#10 7 = .instr (.wrCmd 7) ∧
  decode 0b0000000100#10 0 = .instr .rdSnap ∧ decode 0b0000000101#10 0 = .instr .rdCsum ∧
  decode 0b0000000110#10 0 = .instr .rdLen ∧ decode 0b0010000000#10 0 = .instr (.rdSent 0) ∧
  decode 0b0011000010#10 0 = .instr (.rdSent 66) ∧ decode 0b0011000011#10 0 = .busFault ∧
  decode 0b0100000000#10 1 = .busFault ∧ decode 0b1000000010#10 0 = .reserved

/-- Decode and encode agree on every well-formed operation, with every operand (R81 to R85). -/
def Obligations.DecodeOfEncodeIsTheOperation : Prop :=
  ∀ i : Instr, i.wellFormed = true → ∀ d : Word,
    decode (encode i).op ((encode i).data.getD d) = .instr i

/-- A word that decodes to an operation is that operation's one encoding, and the operation is well-formed: no
operation has two words (R84, R85). -/
def Obligations.EveryOperationHasOneWord : Prop :=
  ∀ (op : OpWord) (d : Word) (i : Instr), decode op d = .instr i →
    i.wellFormed = true ∧ (encode i).op = op ∧ ∀ d', (encode i).data = some d' → d' = d

/-- Which words are illegal and which are reserved, by their value (R86). -/
def Obligations.IllegalAndReservedWords : Prop :=
  ∀ (op : OpWord) (d : Word),
    (decode op d = .busFault ↔
      op.toNat = 0x003 ∨ (0x007 ≤ op.toNat ∧ op.toNat ≤ 0x07F) ∨ (0x0C3 ≤ op.toNat ∧ op.toNat ≤ 0x0FF) ∨
      (0x100 ≤ op.toNat ∧ op.toNat ≤ 0x1FF ∧ op.toNat ≠ 0x103)) ∧
    (decode op d = .reserved ↔ 0x202 ≤ op.toNat)

/-- The counts of R86: of the 512 FG words 438 fault and 74 name an operation (67 of them RD_SENT); of the 512 TK
words 510 are refused and 2 name an operation. -/
def Obligations.WordCounts : Prop :=
  (List.range 512).countP (fun w => decide (decode (BitVec.ofNat 10 w) 0 = .busFault)) = 438 ∧
  (List.range 512).countP (fun w => (decode (BitVec.ofNat 10 w) 0).toInstr?.isSome) = 74 ∧
  (List.range 67).all (fun i => decide (decode (BitVec.ofNat 10 (0x80 + i)) 0 = .instr (.rdSent (BitVec.ofNat 7 i)))) = true ∧
  (List.range 512).countP (fun w => decide (decode (BitVec.ofNat 10 (512 + w)) 0 = .reserved)) = 510 ∧
  (List.range 512).countP (fun w => (decode (BitVec.ofNat 10 (512 + w)) 0).toInstr?.isSome) = 2

/-! ### A step runs what was ordered -/

/-- The state `high10` selects the operation of an expiry (R82): the word the block forms is `1 00000000 H`. -/
def Obligations.ExpiryRunsTheOperationOfTheState : Prop :=
  ∀ (s : State) (rest : List Event), s.config.isAdmitted = true → s.schedule = .expiry :: rest →
    fetch Config.foregroundOrder s = .word (0x200#10 + (BitVec.ofBool s.high10).setWidth 10) 0 ∧
    (s.high10 = false → step s = exec .tickRise { s with schedule := rest }) ∧
    (s.high10 = true → step s = exec .tickFall { s with schedule := rest })

/-- When the word fetched decodes to an operation, the step is that operation's meaning, in the state from which the
ordered step has been taken: its entry of `schedule`, or, where that is empty, the open order's next step (log entry 1). -/
def Obligations.StepRunsTheDecodedOperation : Prop :=
  ∀ (s : State) (op : OpWord) (d : Word) (i : Instr), s.config.isAdmitted = true →
    fetch Config.foregroundOrder s = .word op d → decode op d = .instr i →
    (∀ e rest, s.schedule = e :: rest → step s = exec i { s with schedule := rest }) ∧
    (s.schedule = [] → step s = exec i { s with position := s.position.after Config.foregroundOrder })

/-- A bus access gives the step of its register (R52, R81): every well-formed foreground operation is reached by its
own access of 32 bits. The order of steps stands in the model's `schedule` (log entry 1). -/
def Obligations.AccessRunsItsRegistersOperation : Prop :=
  ∀ (s : State) (rest : List Event) (i : Instr), s.config.isAdmitted = true → i.wellFormed = true →
    (i.isRead = true → s.schedule = .busRead ((encode i).op.setWidth 8) 32 :: rest →
      step s = exec i { s with schedule := rest }) ∧
    (∀ d, i = .wrCmd d → s.schedule = .busWrite 0x03#8 32 d :: rest →
      step s = exec i { s with schedule := rest })

/-- With `schedule` empty the order goes on (log entry 1: the model's reading of R64, R229, R230 and R239): the next step
is the next access of the present alarm interval, and after its last access the expiry that ends the interval. The
machine's own step is the one under the open order. -/
def Obligations.NothingOrderedFollowsTheOpenOrder : Prop :=
  (∀ s : State, step s = cycle Config.foregroundOrder s) ∧
  ∀ (o : AccessOrder) (s : State), s.schedule = [] →
    (∀ done a rest, o s.position.interval = done ++ a :: rest → s.position.issued = done.length →
      cycle o s = cycle o { s with
        schedule := [match a with | .read x => .busRead x 32 | .write x d => .busWrite x 32 d]
        position := { interval := s.position.interval, issued := done.length + 1 } }) ∧
    ((o s.position.interval).length ≤ s.position.issued →
      cycle o s = cycle o { s with
        schedule := [.expiry], position := { interval := s.position.interval + 1, issued := 0 } })

/-- The table word that decodes to an operation, placed for the next step, is run by it (log entry 8). -/
def Obligations.PlacedWordIsTheNextStep : Prop :=
  ∀ (s : State) (w : Nat) (i : Instr), s.config.isAdmitted = true → decodeTableWord 16 w = some i →
    step (s.withFetchWord 16 w) =
      exec i { s with high10 := if i = .tickRise then false else if i = .tickFall then true else s.high10 }

/-! ### Reset -/

/-- What reset leaves (R250), whatever the admitted parameters. -/
def Obligations.ResetLeavesTheSpecifiedState : Prop :=
  (∃ c : Configuration, c.isAdmitted = true ∧ State.reset = State.resetWith c) ∧
  ∀ (c : Configuration) (s : State), s = State.resetWith c →
    s.high10 = false ∧ s.high1 = false ∧ s.sub = 0 ∧
    s.clock = { hour := 12, minute := 0, second := 0 } ∧ s.pending = false ∧
    s.snap = { hour := 12, minute := 0, second := 0 } ∧ s.reload = c.params.initialAlarmUs ∧ s.faults = [] ∧
    (∀ l ∈ s.out10, l = 0#1) ∧ (∀ l ∈ s.out1, l = 0#1) ∧
    returned .rdStatus s = some 0x00000000#32 ∧ returned .rdTime s = some 0x000C0000#32 ∧
    returned .rdSnap s = some 0x000C0000#32 ∧ returned .rdCsum s = some 0x0000005B#32

/-! ### The Pulse Engine -/

/-- TICK_RISE (R100): its word, when it runs, and every block field after it in the three cases of `n = sub + 1`. -/
def Obligations.TickRiseInItsThreeCases : Prop :=
  (∀ d, decode 0x200#10 d = .instr .tickRise) ∧
  ∀ s : State, s.high10 = false → ∃ t, exec .tickRise s = .next t ∧
    t.high10 = true ∧ t.reload = s.config.params.pulseWidthUs ∧ t.snap = s.snap ∧ t.faults = s.faults ∧
    (s.sub.val + 1 = 10 →
      t.sub.val = 0 ∧ t.high1 = true ∧ t.clock = advance s.clock ∧ t.pending = true) ∧
    (s.sub.val + 1 = 1 →
      t.sub.val = 1 ∧ t.high1 = false ∧ t.clock = s.clock ∧ t.pending = s.pending) ∧
    (s.sub.val + 1 ≠ 10 → s.sub.val + 1 ≠ 1 →
      t.sub.val = s.sub.val + 1 ∧ t.high1 = s.high1 ∧ t.clock = s.clock ∧ t.pending = s.pending)

/-- TICK_FALL (R101): its word, when it runs, and every block field after it. -/
def Obligations.TickFallEndsThePulseOnly : Prop :=
  (∀ d, decode 0x201#10 d = .instr .tickFall) ∧
  ∀ s : State, s.high10 = true → ∃ t, exec .tickFall s = .next t ∧
    t.high10 = false ∧ t.reload = Config.periodUs - s.config.params.pulseWidthUs ∧
    t.high1 = s.high1 ∧ t.sub = s.sub ∧ t.clock = s.clock ∧ t.pending = s.pending ∧ t.snap = s.snap ∧
    t.faults = s.faults ∧
    (s.config.isAdmitted = true → 1 ≤ t.reload)

/-- The block never forms the tick word of its other state, and the model refuses it there (log entry 6: the model's
reading of "Enabled only when" in R100 and R101). -/
def Obligations.TickOfTheOtherStateIsRefused : Prop :=
  ∀ s : State,
    (s.high10 = true → exec .tickRise s = .refused .tickNotEnabled) ∧
    (s.high10 = false → exec .tickFall s = .refused .tickNotEnabled)

/-- The SubCounter law (R102, which the spec derives from R100). -/
def Obligations.SubCounterCountsModuloTen : Prop :=
  ∀ s t : State,
    (exec .tickRise s = .next t → t.sub.val = (s.sub.val + 1) % 10 ∧ t.sub.val < 10 ∧
      ((t.sub.val = 0 ↔ s.sub.val = 9) ∧ (t.clock ≠ s.clock ↔ s.sub.val = 9))) ∧
    (exec .tickFall s = .next t → t.sub = s.sub ∧ t.clock = s.clock)

/-- The 1 Hz group law (R103, which the spec derives from R100 and R101), over every step of the machine: what sets
it, what clears it, and nothing else. -/
def Obligations.OneHertzGroupLaw : Prop :=
  ∀ s t : State, step s = .next t →
    (nextIsOneHzEvent Config.foregroundOrder s = true → t.high1 = true) ∧
    (nextInstr Config.foregroundOrder s = some .tickRise → t.sub.val = 1 → t.high1 = false) ∧
    (nextIsOneHzEvent Config.foregroundOrder s = false → ¬(nextInstr Config.foregroundOrder s = some .tickRise ∧ t.sub.val = 1) → t.high1 = s.high1)

/-- Pending overrun (R104): the flag stays set, the clock still advances, no fault is recorded, and nothing else tells
the state from the one that follows an event taken in time. -/
def Obligations.OverrunKeepsTheFlagAndAdvancesTheClock : Prop :=
  ∀ s : State, s.high10 = false → s.sub.val = 9 → s.pending = true →
    ∃ t, exec .tickRise s = .next t ∧ t.pending = true ∧
      secondsOfDay t.clock = (secondsOfDay s.clock + 1) % 86400 ∧ t.snap = s.snap ∧ t.faults = s.faults ∧
      exec .tickRise { s with pending := false } = .next t

/-- All pins change together (R31, R105): on the 1 Hz event both groups go active in one step; on the rise to `sub =
1` the 10 Hz group goes active as the 1 Hz group goes inactive; every pin of a group has one level. -/
def Obligations.PinsOfBothGroupsChangeInOneStep : Prop :=
  (∀ s : State, s.out10.length = s.config.params.n10 ∧ s.out1.length = s.config.params.n1 ∧
    (∀ l ∈ s.out10, l = if s.high10 then 1#1 else 0#1) ∧ (∀ l ∈ s.out1, l = if s.high1 then 1#1 else 0#1)) ∧
  ∀ s : State, s.high10 = false →
    (s.sub.val = 9 → ∃ t, exec .tickRise s = .next t ∧ (∀ l ∈ t.out10, l = 1#1) ∧ (∀ l ∈ t.out1, l = 1#1)) ∧
    (s.sub.val = 0 → ∃ t, exec .tickRise s = .next t ∧ (∀ l ∈ t.out10, l = 1#1) ∧ (∀ l ∈ t.out1, l = 0#1))

/-- The alarm interval law (R106, which the spec derives from R100 and R101), and the time of the next two expiries
from R229: the interval programmed by an expiry is counted from that expiry. `alarmBase` is the model's field for the
environment's time (log entry 4). -/
def Obligations.AlarmIntervalsMakeOnePeriod : Prop :=
  ∀ s : State, s.config.isAdmitted = true → s.high10 = false →
    ∃ t u, exec .tickRise s = .next t ∧ exec .tickFall t = .next u ∧
      t.alarmBase = s.nextExpiry ∧ t.nextExpiry = s.nextExpiry + s.config.params.pulseWidthUs ∧
      u.alarmBase = t.nextExpiry ∧ u.nextExpiry = s.nextExpiry + Config.periodUs ∧ t.reload + u.reload = 100000

/-! ### The Virtual Clock -/

/-- The seconds-of-day form (R131, which the spec derives from R130): ADVANCE adds one second modulo 86400, and `tod`
is a bijection. -/
def Obligations.AdvanceIsOneSecondOfTheDay : Prop :=
  (∀ t : TimeOfDay, secondsOfDay t < 86400 ∧
    secondsOfDay (advance t) = (secondsOfDay t + 1) % 86400 ∧ timeOfSeconds (secondsOfDay t) = t) ∧
  ∀ n : Nat, n < 86400 → secondsOfDay (timeOfSeconds n) = n

/-- The wrap period (R134, which the spec derives from R131): exactly 86400 events. -/
def Obligations.ClockPeriodIsOneDay : Prop :=
  ∀ t : TimeOfDay, advanceTimes 86400 t = t ∧
    ∀ m n : Nat, m < n → n - m < 86400 → advanceTimes m t ≠ advanceTimes n t

/-- ADVANCE runs once per 1 Hz event and at no other time, its result becomes visible in the step that sets `pending`
(R132), and no foreground access writes the clock (R133). -/
def Obligations.ClockMovesOnlyWithTheOneHertzEvent : Prop :=
  ∀ s t : State, step s = .next t →
    (nextIsOneHzEvent Config.foregroundOrder s = true → t.clock = advance s.clock ∧ t.pending = true) ∧
    (nextIsOneHzEvent Config.foregroundOrder s = false → t.clock = s.clock) ∧
    (nextIsTick Config.foregroundOrder s = false → t.clock = s.clock) ∧
    (s.pending = false → t.pending = true → t.clock = advance s.clock)

/-! ### The formatter -/

/-- Every byte of a rendered sentence, by the table of R156. -/
def Obligations.SentenceBytes : Prop :=
  ∀ t : TimeOfDay, ∃ c : Byte, c = checksum (render t) ∧
    render t =
      [0x24#8, 0x47#8, 0x50#8, 0x52#8, 0x4D#8, 0x43#8, 0x2C#8,
       BitVec.ofNat 8 (0x30 + t.hour.val / 10), BitVec.ofNat 8 (0x30 + t.hour.val % 10),
       BitVec.ofNat 8 (0x30 + t.minute.val / 10), BitVec.ofNat 8 (0x30 + t.minute.val % 10),
       BitVec.ofNat 8 (0x30 + t.second.val / 10), BitVec.ofNat 8 (0x30 + t.second.val % 10),
       0x2E#8, 0x30#8, 0x30#8, 0x2C#8, 0x41#8, 0x2C#8, 0x33#8, 0x30#8, 0x30#8, 0x30#8, 0x2E#8, 0x30#8, 0x30#8,
       0x30#8, 0x30#8, 0x2C#8, 0x4E#8, 0x2C#8, 0x31#8, 0x32#8, 0x30#8, 0x30#8, 0x30#8, 0x2E#8, 0x30#8, 0x30#8,
       0x30#8, 0x30#8, 0x2C#8, 0x45#8, 0x2C#8, 0x30#8, 0x2E#8, 0x30#8, 0x2C#8, 0x30#8, 0x2E#8, 0x30#8, 0x2C#8,
       0x30#8, 0x31#8, 0x30#8, 0x31#8, 0x32#8, 0x34#8, 0x2C#8, 0x2C#8, 0x2C#8, 0x41#8, 0x2A#8,
       hexDigit (c.toNat / 16), hexDigit (c.toNat % 16), 0x0D#8, 0x0A#8]

/-- The closed form of the checksum (R159, which the spec derives from R154 and R156): its high digit is 5 and all
sixteen values occur. -/
def Obligations.ChecksumClosedForm : Prop :=
  (∀ t : TimeOfDay,
    checksum (render t) = 0x58#8 ^^^ digit (t.hour.val / 10) ^^^ digit (t.hour.val % 10) ^^^
      digit (t.minute.val / 10) ^^^ digit (t.minute.val % 10) ^^^ digit (t.second.val / 10) ^^^
      digit (t.second.val % 10) ∧
    checksum (render t) = 0x58#8 ^^^ BitVec.ofNat 8 (t.hour.val / 10) ^^^ BitVec.ofNat 8 (t.hour.val % 10) ^^^
      BitVec.ofNat 8 (t.minute.val / 10) ^^^ BitVec.ofNat 8 (t.minute.val % 10) ^^^
      BitVec.ofNat 8 (t.second.val / 10) ^^^ BitVec.ofNat 8 (t.second.val % 10) ∧
    (checksum (render t)).toNat / 16 = 5 ∧ (render t)[63]? = some 0x35#8) ∧
  ∀ v : Nat, 0x50 ≤ v → v ≤ 0x5F → ∃ t : TimeOfDay, (checksum (render t)).toNat = v

/-- The round trip (R163, which the spec derives from R157 and R160): HEX2 of the checksum of bytes 1 to 61 is bytes
63 and 64. -/
def Obligations.ChecksumRoundTrip : Prop :=
  ∀ t : TimeOfDay, (render t).length = 67 ∧
    ((render t).drop 63).take 2 = hex2 ((((render t).drop 1).take 61).foldl (fun c b => c ^^^ b) 0#8)

/-- HEX2 (R153): two upper-case digits that read back as the byte. -/
def Obligations.HexDigitsReadBack : Prop :=
  ∀ c : Byte, ∃ a b : Byte, hex2 c = [a, b] ∧
    a = hexDigit (c.toNat / 16) ∧ b = hexDigit (c.toNat % 16) ∧
    (∀ x ∈ [a, b], (0x30 ≤ x.toNat ∧ x.toNat ≤ 0x39) ∨ (0x41 ≤ x.toNat ∧ x.toNat ≤ 0x46)) ∧
    c.toNat = 16 * (if a.toNat < 0x41 then a.toNat - 0x30 else a.toNat - 0x37) +
      (if b.toNat < 0x41 then b.toNat - 0x30 else b.toNat - 0x37)

/-- Two clock values have one sentence only if they are equal: what a consumer transmits names its second. -/
def Obligations.SentenceDeterminesTheTime : Prop :=
  ∀ t u : TimeOfDay, render t = render u → t = u

/-! ### The foreground operations -/

/-- RD_STATUS (R180). -/
def Obligations.RdStatusReturnsTheFlag : Prop :=
  (∀ d, decode 0x000#10 d = .instr .rdStatus) ∧
  ∀ s : State, ∃ t d, exec .rdStatus s = .next t ∧ t.busResult = some d ∧
    d.toNat = (if s.pending then 1 else 0) ∧ SameBlock s t

/-- RD_TIME (R181). -/
def Obligations.RdTimeReturnsTheClock : Prop :=
  (∀ d, decode 0x001#10 d = .instr .rdTime) ∧
  ∀ s : State, ∃ t d, exec .rdTime s = .next t ∧ t.busResult = some d ∧
    d.toNat = s.clock.hour.val * 0x10000 + s.clock.minute.val * 0x100 + s.clock.second.val ∧ SameBlock s t

/-- The time layout of TIME (R54), field by field. -/
def Obligations.TimeRegisterLayout : Prop :=
  (∀ s : State, ∃ d, returned .rdTime s = some d ∧
    (d.extractLsb' 0 6).toNat = s.clock.second.val ∧ d.extractLsb' 6 2 = 0 ∧
    (d.extractLsb' 8 6).toNat = s.clock.minute.val ∧ d.extractLsb' 14 2 = 0 ∧
    (d.extractLsb' 16 5).toNat = s.clock.hour.val ∧ d.extractLsb' 21 11 = 0) ∧
  returned .rdTime State.reset = some 0x000C0000#32

/-- RD_TAKE (R182): the old flag and the clock are returned, the flag is cleared, SNAP is loaded if the flag was set; a
second TAKE with no tick step between finds the flag clear and leaves SNAP. -/
def Obligations.RdTakeTakesFlagAndClock : Prop :=
  (∀ d, decode 0x002#10 d = .instr .rdTake) ∧
  ∀ s : State, ∃ t d, exec .rdTake s = .next t ∧ t.busResult = some d ∧
    d.getLsbD 31 = s.pending ∧ d.extractLsb' 21 10 = 0 ∧
    (d.extractLsb' 0 21).toNat = s.clock.hour.val * 0x10000 + s.clock.minute.val * 0x100 + s.clock.second.val ∧
    t.pending = false ∧ (s.pending = true → t.snap = s.clock) ∧ (s.pending = false → t.snap = s.snap) ∧
    SameTickDomain s t ∧ t.faults = s.faults ∧
    ∃ u d', exec .rdTake t = .next u ∧ u.busResult = some d' ∧ d'.getLsbD 31 = false ∧ u.snap = t.snap

/-- WR_CMD (R183): LATCH is bit 1, CLEAR is bit 0, bits 31:2 are ignored. -/
def Obligations.WrCmdLatchesAndClears : Prop :=
  (∀ d, decode 0x103#10 d = .instr (.wrCmd d)) ∧
  ∀ (s : State) (d : Word), ∃ t, exec (.wrCmd d) s = .next t ∧
    t.snap = (if d.toNat / 2 % 2 = 1 then s.clock else s.snap) ∧
    t.pending = (if d.toNat % 2 = 1 then false else s.pending) ∧
    SameTickDomain s t ∧ t.faults = s.faults ∧
    exec (.wrCmd (d &&& 3#32)) s = .next t

/-- RD_SNAP (R184), and that no tick step changes what it reads. -/
def Obligations.RdSnapReturnsTheLatch : Prop :=
  (∀ d, decode 0x004#10 d = .instr .rdSnap) ∧
  (∀ s : State, ∃ t d, exec .rdSnap s = .next t ∧ t.busResult = some d ∧
    d.toNat = s.snap.hour.val * 0x10000 + s.snap.minute.val * 0x100 + s.snap.second.val ∧ SameBlock s t) ∧
  ∀ (i : Instr) (s t : State), i.isTick = true → exec i s = .next t → t.snap = s.snap

/-- RD_CSUM (R185): the checksum of the rendered sentence, whose high digit is 5. -/
def Obligations.RdCsumReturnsTheChecksum : Prop :=
  (∀ d, decode 0x005#10 d = .instr .rdCsum) ∧
  ∀ s : State, ∃ t d, exec .rdCsum s = .next t ∧ t.busResult = some d ∧
    d.toNat = ((((render s.snap).drop 1).take 61).foldl (fun c b => c ^^^ b) 0#8).toNat ∧
    0x50 ≤ d.toNat ∧ d.toNat ≤ 0x5F ∧ SameBlock s t

/-- RD_LEN (R186). -/
def Obligations.RdLenReturnsSixtySeven : Prop :=
  (∀ d, decode 0x006#10 d = .instr .rdLen) ∧
  ∀ s : State, ∃ t d, exec .rdLen s = .next t ∧ t.busResult = some d ∧ d.toNat = 67 ∧ SameBlock s t

/-- RD_SENT (R187): the word of each index, the byte it returns, and the fixed bytes; an index of 67 or more is not this
operation. -/
def Obligations.RdSentReturnsTheByte : Prop :=
  (∀ i : BitVec 7, 67 ≤ i.toNat → ∀ d, decode (0x080#10 + i.setWidth 10) d = .busFault) ∧
  ∀ i : BitVec 7, i.toNat ≤ 66 →
    (∀ d, decode (0x080#10 + i.setWidth 10) d = .instr (.rdSent i)) ∧
    ∀ s : State, ∃ t d, exec (.rdSent i) s = .next t ∧ t.busResult = some d ∧
      (render s.snap)[i.toNat]?.map BitVec.toNat = some d.toNat ∧
      (i.toNat = 0 → d.toNat = 0x24) ∧ (i.toNat = 62 → d.toNat = 0x2A) ∧ (i.toNat = 63 → d.toNat = 0x35) ∧
      (i.toNat = 65 → d.toNat = 0x0D) ∧ (i.toNat = 66 → d.toNat = 0x0A) ∧ SameBlock s t

/-- The meaning the model gives the ill-formed term RD_SENT at an index of 67 or more, which no word decodes to, is the
BusFault R52 gives such a read (the model's reading: log entry 16). -/
def Obligations.SentIndexPastTheEndFaults : Prop :=
  ∀ i : BitVec 7, 67 ≤ i.toNat → ∀ s : State, exec (.rdSent i) s =
    .next { s with busResult := none, faults := s.faults ++ [{ op := 0x080#10 + i.setWidth 10, data := none }] }

/-- CSUM and the SENT bytes are functions of SNAP alone (R161): no other state reaches them. -/
def Obligations.SentenceRegistersFollowSnapOnly : Prop :=
  ∀ s s' : State, s.snap = s'.snap →
    (∀ i : BitVec 7, i.toNat ≤ 66 → returned (.rdSent i) s = returned (.rdSent i) s' ∧
      (returned (.rdSent i) s).isSome = true) ∧
    returned .rdCsum s = returned .rdCsum s' ∧ (returned .rdCsum s).isSome = true

/-! ### The frame of the model's own fields -/

/-- What an operation does to the model's own fields (log entries 1 to 4): none changes the parameters, or the order of
steps or the place in it; a tick moves the environment's time by the interval programmed and leaves the foreground's last
value; an access leaves the time; a read returns a word, and a write none. -/
def Obligations.ModelFieldsOfEachOperation : Prop :=
  ∀ (i : Instr) (s t : State), exec i s = .next t →
    t.config = s.config ∧ t.schedule = s.schedule ∧ t.position = s.position ∧
    (i.isTick = true → t.alarmBase = s.alarmBase + s.reload ∧ t.busResult = s.busResult) ∧
    (i.isTick = false → t.alarmBase = s.alarmBase) ∧
    (i.isRead = true → i.wellFormed = true → t.busResult.isSome = true) ∧
    (∀ d, i = .wrCmd d → t.busResult = none)

/-! ### Faults and refusals -/

/-- BusFault (R221, R224): an illegal access performs nothing but append its record; the machine goes on and the state is
no good final state. The model's own choices in it: that the outcome is a next state (log entry 5), that a faulted access
leaves no value in `busResult`, a write too (log entry 2), and the fields `schedule` and `position` (log entry 1), `config`
(log entry 3) and `alarmBase` (log entry 4), which it leaves but for its own entry. -/
def Obligations.BusFaultOnlyAppendsItsRecord : Prop :=
  ∀ (s : State) (rest : List Event) (a : Offset), s.config.isAdmitted = true →
    (s.schedule = .busRead a 32 :: rest →
      (a.toNat = 3 ∨ (7 ≤ a.toNat ∧ a.toNat ≤ 0x7F) ∨ 0xC3 ≤ a.toNat) →
      ∃ t, step s = .next t ∧ SameTickDomain s t ∧ t.pending = s.pending ∧ t.snap = s.snap ∧
        t.faults = s.faults ++ [{ op := a.setWidth 10, data := none }] ∧ t.busResult = none ∧
        t.schedule = rest ∧ t.position = s.position ∧ t.config = s.config ∧ t.alarmBase = s.alarmBase ∧ t.good = false) ∧
    (∀ d, s.schedule = .busWrite a 32 d :: rest → a.toNat ≠ 3 →
      ∃ t, step s = .next t ∧ SameTickDomain s t ∧ t.pending = s.pending ∧ t.snap = s.snap ∧
        t.faults = s.faults ++ [{ op := 0x100#10 + a.setWidth 10, data := some d }] ∧ t.busResult = none ∧
        t.schedule = rest ∧ t.position = s.position ∧ t.config = s.config ∧ t.alarmBase = s.alarmBase ∧ t.good = false)

/-- The refusals of R222, each for the whole of the run that begins with it. The model's own choices in it: that a
configuration out of bounds is refused at every step, ahead of anything else (log entry 9), that the width is refused
before the offset is looked at (log entry 7), and that a reserved word is ordered by its number (log entry 8). -/
def Obligations.RefusalsStopTheRun : Prop :=
  ∀ (s : State) (n : Nat),
    (∀ p : Params, s.config = Configuration.ofParams p →
      (p.pulseWidthUs < 1 ∨ 100000 - 1 < p.pulseWidthUs ∨ p.initialAlarmUs < 1 ∨ p.n10 < 1 ∨ p.n1 < 1) →
      runSteps (n + 1) s = .refused .configurationOutOfBounds) ∧
    (s.config.isAdmitted = true → ∀ rest,
      (∀ w d, s.schedule = .namedWord w d :: rest → 0x202 ≤ w → w ≤ 0x3FF →
        runSteps (n + 1) s = .refused .reservedTickWord) ∧
      (∀ a width, s.schedule = .busRead a width :: rest → width ≠ 32 →
        runSteps (n + 1) s = .refused .accessWidth) ∧
      (∀ a width d, s.schedule = .busWrite a width d :: rest → width ≠ 32 →
        runSteps (n + 1) s = .refused .accessWidth))

/-- Nothing the interface has can fail: under an admitted configuration every expiry (R108, R220), every operation of the
foreground (R188, R220) and every illegal access of 32 bits (R221, R224, a next state by log entry 5) completes, in any
order, and so does a run of them. The order is `schedule` and after it the open order (log entry 1). -/
def Obligations.EveryExpiryAndAccessCompletes : Prop :=
  ∀ s : State, s.config.isAdmitted = true → (∀ e ∈ s.schedule, e.isInterface = true) →
    ∀ n, ∃ t, runSteps n s = .next t ∧ t.schedule = s.schedule.drop n ∧ t.config = s.config

/-- Faults are sticky and stop nothing (R224): a step appends at most one record, removes none, and does to the rest
of the state what it does whatever records there are. -/
def Obligations.FaultsAreStickyAndStopNothing : Prop :=
  ∀ s t : State, step s = .next t → ∃ l : List FaultRecord, l.length ≤ 1 ∧ t.faults = s.faults ++ l ∧
    ∀ fs : List FaultRecord, step { s with faults := fs } = .next { t with faults := fs ++ l }

/-! ### Writers, invariants and the timeline -/

/-- Who writes what (R38), over every step of the machine. -/
def Obligations.EachFieldHasItsWriter : Prop :=
  ∀ s t : State, step s = .next t →
    (nextIsTick Config.foregroundOrder s = false → SameTickDomain s t ∧ (t.pending = true → s.pending = true)) ∧
    (nextIsTick Config.foregroundOrder s = true → t.snap = s.snap ∧ (s.pending = true → t.pending = true))

/-- Reset meets the invariants of R39 and R40, which the spec derives from its step rules, and stands at the start of
the timeline. -/
def Obligations.ResetMeetsTheInvariants : Prop :=
  ∀ c : Configuration, PhaseInv (State.resetWith c) ∧ ReloadInv (State.resetWith c) ∧
    Timeline 0 (State.resetWith c)

/-- Every step keeps the phase invariant (R39, which the spec derives from R22, R23 and R100). -/
def Obligations.EveryStepKeepsThePhaseInvariant : Prop :=
  ∀ s t : State, PhaseInv s → step s = .next t → PhaseInv t

/-- Every step keeps the reload invariant (R40, which the spec derives from R29, R100 and R101). "After at least one
tick" is `alarmBase ≠ 0` (log entry 4). -/
def Obligations.EveryStepKeepsTheReloadInvariant : Prop :=
  ∀ s t : State, ReloadInv s → step s = .next t → ReloadInv t

/-- Every step, a foreground access included, keeps the block on the timeline of R109 to R113, which the spec derives
from its step rules: a rising edge moves it to the next edge, and no other step moves the count of edges. -/
def Obligations.EveryStepKeepsTheTimeline : Prop :=
  ∀ (r : Nat) (s t : State), Timeline r s → step s = .next t →
    Timeline (if nextInstr Config.foregroundOrder s = some .tickRise then r + 1 else r) t

/-- Ticks from reset alternate (R107, derived by the spec), and tick `k` is at the time R109 gives it, held in the
model's `alarmBase` (log entry 4). One run only: that in which no access is ordered among the expiries (log entry 1);
for every order see EveryOrderHasTheWaveforms. -/
def Obligations.TicksAlternateAtTheirTimes : Prop :=
  ∀ c : Configuration, c.isAdmitted = true → ∀ j : Nat,
    ∃ s t u, runSteps (2 * j) (ticking c (2 * j + 2)) = .next s ∧
      nextInstr Config.foregroundOrder s = some .tickRise ∧
      runSteps (2 * j + 1) (ticking c (2 * j + 2)) = .next t ∧
      nextInstr Config.foregroundOrder t = some .tickFall ∧
      runSteps (2 * j + 2) (ticking c (2 * j + 2)) = .next u ∧
      t.alarmBase = c.params.initialAlarmUs + j * 100000 ∧
      u.alarmBase = t.alarmBase + c.params.pulseWidthUs

/-- The 10 Hz waveform (R110, derived by the spec from R109 and R31). The state after tick `k` is in force from its
`alarmBase` to its `nextExpiry` (log entry 4). One run only: that in which no access is ordered among the expiries (log
entry 1). -/
def Obligations.TenHertzWaveform : Prop :=
  ∀ c : Configuration, c.isAdmitted = true →
    (∀ l ∈ (State.resetWith c).out10, l = 0#1) ∧ (State.resetWith c).alarmBase = 0 ∧
    (State.resetWith c).nextExpiry = c.params.initialAlarmUs ∧
    ∀ j : Nat, ∃ t u v, runSteps (2 * j + 1) (ticking c (2 * j + 3)) = .next t ∧
      runSteps (2 * j + 2) (ticking c (2 * j + 3)) = .next u ∧
      runSteps (2 * j + 3) (ticking c (2 * j + 3)) = .next v ∧
      t.alarmBase = c.params.initialAlarmUs + j * 100000 ∧
      (∀ l ∈ t.out10, l = 1#1) ∧ t.nextExpiry = u.alarmBase ∧ u.alarmBase - t.alarmBase = c.params.pulseWidthUs ∧
      (∀ l ∈ u.out10, l = 0#1) ∧ u.nextExpiry = v.alarmBase ∧ v.alarmBase - t.alarmBase = 100000

/-- Rising-edge numbering (R111, derived by the spec): edge `r` is tick `2r - 1`, its time (log entry 4), the counter
after it, and which edges are 1 Hz events; the first is tick 19. One run only: that in which no access is ordered among
the expiries, so that step `k` is tick `k` (log entry 1). -/
def Obligations.RisingEdgeNumbering : Prop :=
  ∀ c : Configuration, c.isAdmitted = true → ∀ r : Nat, 1 ≤ r →
    ∃ s t, runSteps (2 * r - 2) (ticking c (2 * r - 1)) = .next s ∧
      runSteps (2 * r - 1) (ticking c (2 * r - 1)) = .next t ∧
      nextInstr Config.foregroundOrder s = some .tickRise ∧
      t.alarmBase = c.params.initialAlarmUs + (r - 1) * 100000 ∧
      t.sub.val = r % 10 ∧ (nextIsOneHzEvent Config.foregroundOrder s = true ↔ ∃ q, 1 ≤ q ∧ r = 10 * q) ∧
      (r = 10 → 2 * r - 1 = 19 ∧ t.alarmBase = c.params.initialAlarmUs + 9 * 100000)

/-- The 1 Hz waveform (R112, derived by the spec from R103 and R111): after tick `k` the group is active exactly for
`k = 20q - 1` and `k = 20q`, `q ≥ 1`, that is from the time of tick `20q - 1` to that of tick `20q + 1`, one 10 Hz
period later; and it repeats every second (times in `alarmBase`, log entry 4). One run only: that in which no access is
ordered among the expiries (log entry 1). -/
def Obligations.OneHertzWaveform : Prop :=
  ∀ c : Configuration, c.isAdmitted = true →
    (∀ k : Nat, ∃ t, runSteps k (ticking c k) = .next t ∧
      (t.high1 = true ↔ ∃ q, 1 ≤ q ∧ (k = 20 * q - 1 ∨ k = 20 * q)) ∧
      (∀ l ∈ t.out1, l = if t.high1 then 1#1 else 0#1)) ∧
    ∀ q : Nat, 1 ≤ q → ∃ t u v, runSteps (20 * q - 1) (ticking c (20 * q + 19)) = .next t ∧
      runSteps (20 * q + 1) (ticking c (20 * q + 19)) = .next u ∧
      runSteps (20 * q + 19) (ticking c (20 * q + 19)) = .next v ∧
      t.high10 = true ∧ t.alarmBase = c.params.initialAlarmUs + (10 * q - 1) * 100000 ∧
      u.alarmBase = c.params.initialAlarmUs + 10 * q * 100000 ∧ u.alarmBase - t.alarmBase = 100000 ∧
      v.alarmBase - t.alarmBase = 1000000

/-- The clock against edges (R113, derived by the spec from R111 and R130). One run only: that in which no access is
ordered among the expiries (log entry 1). -/
def Obligations.ClockAgainstEdges : Prop :=
  ∀ c : Configuration, c.isAdmitted = true → ∀ r : Nat, 1 ≤ r →
    ∃ t, runSteps (2 * r - 1) (ticking c (2 * r - 1)) = .next t ∧
      secondsOfDay t.clock = (43200 + r / 10) % 86400 ∧
      oneHzEvents Config.foregroundOrder (2 * r - 1) (ticking c (2 * r - 1)) = r / 10

/-- R107 and R109 to R113 under every order of expiries and accesses, those of `schedule` and after them those of any
`o` (log entry 1): where `k` of the steps from reset were ticks, the groups, the counter, the clock, the interval and the
time of the latest expiry (log entry 4) are those of tick `k`, whatever accesses fell between. -/
def Obligations.EveryOrderHasTheWaveforms : Prop :=
  ∀ (c : Configuration) (o : AccessOrder) (es : List Event) (n k : Nat) (t : State),
    runUnder o n { State.resetWith c with schedule := es } = .next t →
    ticksIn o n { State.resetWith c with schedule := es } = k →
    (∀ l ∈ t.out10, l = if k % 2 = 1 then 1#1 else 0#1) ∧
    (t.high1 = true ↔ ∃ q, 1 ≤ q ∧ (k = 20 * q - 1 ∨ k = 20 * q)) ∧
    t.sub.val = (k + 1) / 2 % 10 ∧ secondsOfDay t.clock = (43200 + (k + 1) / 2 / 10) % 86400 ∧
    (k % 2 = 1 → t.alarmBase = c.params.initialAlarmUs + (k - 1) / 2 * 100000 ∧ t.reload = c.params.pulseWidthUs) ∧
    (k % 2 = 0 → 1 ≤ k →
      t.alarmBase = c.params.initialAlarmUs + (k - 2) / 2 * 100000 + c.params.pulseWidthUs ∧
      t.reload = 100000 - c.params.pulseWidthUs)

/-! ### Fairness, over infinite runs -/

/-- The alarm fires for ever (R239, which the spec derives from R229), under every order of the accesses: however far a
run has come, an alarm expiry that performs a tick operation is still ahead. The machine's own run is the one under the
open order (log entry 1). -/
def Obligations.TheAlarmFiresForEver : Prop :=
  ∀ (o : AccessOrder) (s : State), s.config.isAdmitted = true → (∀ e ∈ s.schedule, e.isInterface = true) →
    ∀ n, ∃ m t u, n ≤ m ∧ runUnder o m s = .next t ∧ runUnder o (m + 1) s = .next u ∧
      (nextInstr o t = some .tickRise ∨ nextInstr o t = some .tickFall) ∧ u.alarmBase = t.nextExpiry ∧
      u.high10 = !t.high10

/-- Foreground fairness (R239), under every order that schedules the foreground infinitely often: however far a run has
come, a foreground access is still ahead. Which accesses an order has is the model's `o` (log entry 1). -/
def Obligations.AFairForegroundAccessesForEver : Prop :=
  ∀ (o : AccessOrder) (s : State), ForegroundFair o → s.config.isAdmitted = true →
    (∀ e ∈ s.schedule, e.isInterface = true) →
    ∀ n, ∃ m t u, n ≤ m ∧ runUnder o m s = .next t ∧ runUnder o (m + 1) s = .next u ∧
      nextIsTick o t = false ∧ SameTickDomain t u

/-- A foreground wait ends (R239's example): where the foreground issues TAKE infinitely often, and no write with CLEAR,
and nothing stronger is assumed of the order, a TAKE that returns bit 31 = 1 is still ahead however far the run has come.
The order is `schedule` and after it any `o` (log entry 1). -/
def Obligations.TakeReturnsTheFlagAgainAndAgain : Prop :=
  ∀ (o : AccessOrder) (s : State), Recurs (.read 0x02#8) o →
    (∀ k d, Access.write 0x03#8 d ∈ o k → d.getLsbD 0 = false) → s.config.isAdmitted = true →
    (∀ e ∈ s.schedule, e.isInterface = true) →
    ∀ n, ∃ m t u d, n ≤ m ∧ runUnder o m s = .next t ∧ nextInstr o t = some .rdTake ∧
      runUnder o (m + 1) s = .next u ∧ u.busResult = some d ∧ d.getLsbD 31 = true ∧ u.snap = t.clock

/-! ### The handoff between the domains -/

/-- No lost set (R67, derived by the spec from R64, R182 and R100): once `pending` is set, on any run it is set still,
or some step of the run was a TAKE that returned bit 31 = 1, or a CMD write with CLEAR. -/
def Obligations.NoSetOfPendingIsLost : Prop :=
  ∀ (n : Nat) (s t : State), s.pending = true → runSteps n s = .next t →
    t.pending = true ∨
    ∃ m u v, m < n ∧ runSteps m s = .next u ∧ runSteps (m + 1) s = .next v ∧ u.pending = true ∧
      ((nextInstr Config.foregroundOrder u = some .rdTake ∧ ∃ d, v.busResult = some d ∧ d.getLsbD 31 = true) ∨
       ∃ d, nextInstr Config.foregroundOrder u = some (.wrCmd d) ∧ d.getLsbD 0 = true)

/-- No foreground access delays, blocks or stops a tick step, or reaches the tick domain (R188): over any order of
expiries and 32-bit accesses, the tick domain ends as it does after the expiries alone, at the same time. -/
def Obligations.AccessesDoNotDisturbTheTickDomain : Prop :=
  ∀ (s : State) (es : List Event), s.config.isAdmitted = true → (∀ e ∈ es, e.isInterface = true) →
    ∃ t u, runSteps es.length { s with schedule := es } = .next t ∧
      runSteps (es.filter Event.isExpiry).length { s with schedule := es.filter Event.isExpiry } = .next u ∧
      SameTickDomain t u ∧ t.alarmBase = u.alarmBase

/-- The split poll and clear loses an event (R256): latch, 1 Hz event, clear ends with no flag set and SNAP at the
second before; the TAKE after the same event returns it. -/
def Obligations.SplitClearLosesTheEventAndTakeDoesNot : Prop :=
  ∀ (s : State) (rest : List Event), s.config.isAdmitted = true → s.high10 = false → s.sub.val = 9 →
    (s.schedule = Listing.latch :: Listing.tick :: Listing.clear :: rest →
      ∃ t, runSteps 3 s = .next t ∧ t.pending = false ∧ t.snap = s.clock ∧ t.clock = advance s.clock ∧
        t.snap ≠ t.clock) ∧
    (s.schedule = Listing.tick :: Listing.rdTake :: rest →
      ∃ t d, runSteps 2 s = .next t ∧ t.busResult = some d ∧ d.getLsbD 31 = true ∧ t.pending = false ∧
        t.snap = advance s.clock ∧ t.clock = t.snap)
end

