-- ==== Sys2Proof/Laws/State.lean ====
section
/-! SUPPORT. One lemma for each field and each update of the state, so that no proof unfolds a record update. -/

namespace Sys2Proof.Machine

section
variable (s : State)

@[simp] theorem State.drive10_high10 (b : Bool) : (s.drive10 b).high10 = b := rfl
@[simp] theorem State.drive10_high1 (b : Bool) : (s.drive10 b).high1 = s.high1 := rfl
@[simp] theorem State.drive10_sub (b : Bool) : (s.drive10 b).sub = s.sub := rfl
@[simp] theorem State.drive10_clock (b : Bool) : (s.drive10 b).clock = s.clock := rfl
@[simp] theorem State.drive10_pending (b : Bool) : (s.drive10 b).pending = s.pending := rfl
@[simp] theorem State.drive10_snap (b : Bool) : (s.drive10 b).snap = s.snap := rfl
@[simp] theorem State.drive10_reload (b : Bool) : (s.drive10 b).reload = s.reload := rfl
@[simp] theorem State.drive10_faults (b : Bool) : (s.drive10 b).faults = s.faults := rfl
@[simp] theorem State.drive10_config (b : Bool) : (s.drive10 b).config = s.config := rfl
@[simp] theorem State.drive10_alarmBase (b : Bool) : (s.drive10 b).alarmBase = s.alarmBase := rfl
@[simp] theorem State.drive10_schedule (b : Bool) : (s.drive10 b).schedule = s.schedule := rfl
@[simp] theorem State.drive10_position (b : Bool) : (s.drive10 b).position = s.position := rfl
@[simp] theorem State.drive10_busResult (b : Bool) : (s.drive10 b).busResult = s.busResult := rfl

@[simp] theorem State.drive1_high10 (b : Bool) : (s.drive1 b).high10 = s.high10 := rfl
@[simp] theorem State.drive1_high1 (b : Bool) : (s.drive1 b).high1 = b := rfl
@[simp] theorem State.drive1_sub (b : Bool) : (s.drive1 b).sub = s.sub := rfl
@[simp] theorem State.drive1_clock (b : Bool) : (s.drive1 b).clock = s.clock := rfl
@[simp] theorem State.drive1_pending (b : Bool) : (s.drive1 b).pending = s.pending := rfl
@[simp] theorem State.drive1_snap (b : Bool) : (s.drive1 b).snap = s.snap := rfl
@[simp] theorem State.drive1_reload (b : Bool) : (s.drive1 b).reload = s.reload := rfl
@[simp] theorem State.drive1_faults (b : Bool) : (s.drive1 b).faults = s.faults := rfl
@[simp] theorem State.drive1_config (b : Bool) : (s.drive1 b).config = s.config := rfl
@[simp] theorem State.drive1_alarmBase (b : Bool) : (s.drive1 b).alarmBase = s.alarmBase := rfl
@[simp] theorem State.drive1_schedule (b : Bool) : (s.drive1 b).schedule = s.schedule := rfl
@[simp] theorem State.drive1_position (b : Bool) : (s.drive1 b).position = s.position := rfl
@[simp] theorem State.drive1_busResult (b : Bool) : (s.drive1 b).busResult = s.busResult := rfl

@[simp] theorem State.programReload_high10 (n : Nat) : (s.programReload n).high10 = s.high10 := rfl
@[simp] theorem State.programReload_high1 (n : Nat) : (s.programReload n).high1 = s.high1 := rfl
@[simp] theorem State.programReload_sub (n : Nat) : (s.programReload n).sub = s.sub := rfl
@[simp] theorem State.programReload_clock (n : Nat) : (s.programReload n).clock = s.clock := rfl
@[simp] theorem State.programReload_pending (n : Nat) : (s.programReload n).pending = s.pending := rfl
@[simp] theorem State.programReload_snap (n : Nat) : (s.programReload n).snap = s.snap := rfl
@[simp] theorem State.programReload_reload (n : Nat) : (s.programReload n).reload = n := rfl
@[simp] theorem State.programReload_faults (n : Nat) : (s.programReload n).faults = s.faults := rfl
@[simp] theorem State.programReload_config (n : Nat) : (s.programReload n).config = s.config := rfl
@[simp] theorem State.programReload_alarmBase (n : Nat) : (s.programReload n).alarmBase = s.alarmBase := rfl
@[simp] theorem State.programReload_schedule (n : Nat) : (s.programReload n).schedule = s.schedule := rfl
@[simp] theorem State.programReload_position (n : Nat) : (s.programReload n).position = s.position := rfl
@[simp] theorem State.programReload_busResult (n : Nat) : (s.programReload n).busResult = s.busResult := rfl

@[simp] theorem State.setSub_high10 (n : Fin 10) : (s.setSub n).high10 = s.high10 := rfl
@[simp] theorem State.setSub_high1 (n : Fin 10) : (s.setSub n).high1 = s.high1 := rfl
@[simp] theorem State.setSub_sub (n : Fin 10) : (s.setSub n).sub = n := rfl
@[simp] theorem State.setSub_clock (n : Fin 10) : (s.setSub n).clock = s.clock := rfl
@[simp] theorem State.setSub_pending (n : Fin 10) : (s.setSub n).pending = s.pending := rfl
@[simp] theorem State.setSub_snap (n : Fin 10) : (s.setSub n).snap = s.snap := rfl
@[simp] theorem State.setSub_reload (n : Fin 10) : (s.setSub n).reload = s.reload := rfl
@[simp] theorem State.setSub_faults (n : Fin 10) : (s.setSub n).faults = s.faults := rfl
@[simp] theorem State.setSub_config (n : Fin 10) : (s.setSub n).config = s.config := rfl
@[simp] theorem State.setSub_alarmBase (n : Fin 10) : (s.setSub n).alarmBase = s.alarmBase := rfl
@[simp] theorem State.setSub_schedule (n : Fin 10) : (s.setSub n).schedule = s.schedule := rfl
@[simp] theorem State.setSub_position (n : Fin 10) : (s.setSub n).position = s.position := rfl
@[simp] theorem State.setSub_busResult (n : Fin 10) : (s.setSub n).busResult = s.busResult := rfl

@[simp] theorem State.setClock_high10 (c : TimeOfDay) : (s.setClock c).high10 = s.high10 := rfl
@[simp] theorem State.setClock_high1 (c : TimeOfDay) : (s.setClock c).high1 = s.high1 := rfl
@[simp] theorem State.setClock_sub (c : TimeOfDay) : (s.setClock c).sub = s.sub := rfl
@[simp] theorem State.setClock_clock (c : TimeOfDay) : (s.setClock c).clock = c := rfl
@[simp] theorem State.setClock_pending (c : TimeOfDay) : (s.setClock c).pending = s.pending := rfl
@[simp] theorem State.setClock_snap (c : TimeOfDay) : (s.setClock c).snap = s.snap := rfl
@[simp] theorem State.setClock_reload (c : TimeOfDay) : (s.setClock c).reload = s.reload := rfl
@[simp] theorem State.setClock_faults (c : TimeOfDay) : (s.setClock c).faults = s.faults := rfl
@[simp] theorem State.setClock_config (c : TimeOfDay) : (s.setClock c).config = s.config := rfl
@[simp] theorem State.setClock_alarmBase (c : TimeOfDay) : (s.setClock c).alarmBase = s.alarmBase := rfl
@[simp] theorem State.setClock_schedule (c : TimeOfDay) : (s.setClock c).schedule = s.schedule := rfl
@[simp] theorem State.setClock_position (c : TimeOfDay) : (s.setClock c).position = s.position := rfl
@[simp] theorem State.setClock_busResult (c : TimeOfDay) : (s.setClock c).busResult = s.busResult := rfl

@[simp] theorem State.setPending_high10 (b : Bool) : (s.setPending b).high10 = s.high10 := rfl
@[simp] theorem State.setPending_high1 (b : Bool) : (s.setPending b).high1 = s.high1 := rfl
@[simp] theorem State.setPending_sub (b : Bool) : (s.setPending b).sub = s.sub := rfl
@[simp] theorem State.setPending_clock (b : Bool) : (s.setPending b).clock = s.clock := rfl
@[simp] theorem State.setPending_pending (b : Bool) : (s.setPending b).pending = b := rfl
@[simp] theorem State.setPending_snap (b : Bool) : (s.setPending b).snap = s.snap := rfl
@[simp] theorem State.setPending_reload (b : Bool) : (s.setPending b).reload = s.reload := rfl
@[simp] theorem State.setPending_faults (b : Bool) : (s.setPending b).faults = s.faults := rfl
@[simp] theorem State.setPending_config (b : Bool) : (s.setPending b).config = s.config := rfl
@[simp] theorem State.setPending_alarmBase (b : Bool) : (s.setPending b).alarmBase = s.alarmBase := rfl
@[simp] theorem State.setPending_schedule (b : Bool) : (s.setPending b).schedule = s.schedule := rfl
@[simp] theorem State.setPending_position (b : Bool) : (s.setPending b).position = s.position := rfl
@[simp] theorem State.setPending_busResult (b : Bool) : (s.setPending b).busResult = s.busResult := rfl

@[simp] theorem State.setSnap_high10 (c : TimeOfDay) : (s.setSnap c).high10 = s.high10 := rfl
@[simp] theorem State.setSnap_high1 (c : TimeOfDay) : (s.setSnap c).high1 = s.high1 := rfl
@[simp] theorem State.setSnap_sub (c : TimeOfDay) : (s.setSnap c).sub = s.sub := rfl
@[simp] theorem State.setSnap_clock (c : TimeOfDay) : (s.setSnap c).clock = s.clock := rfl
@[simp] theorem State.setSnap_pending (c : TimeOfDay) : (s.setSnap c).pending = s.pending := rfl
@[simp] theorem State.setSnap_snap (c : TimeOfDay) : (s.setSnap c).snap = c := rfl
@[simp] theorem State.setSnap_reload (c : TimeOfDay) : (s.setSnap c).reload = s.reload := rfl
@[simp] theorem State.setSnap_faults (c : TimeOfDay) : (s.setSnap c).faults = s.faults := rfl
@[simp] theorem State.setSnap_config (c : TimeOfDay) : (s.setSnap c).config = s.config := rfl
@[simp] theorem State.setSnap_alarmBase (c : TimeOfDay) : (s.setSnap c).alarmBase = s.alarmBase := rfl
@[simp] theorem State.setSnap_schedule (c : TimeOfDay) : (s.setSnap c).schedule = s.schedule := rfl
@[simp] theorem State.setSnap_position (c : TimeOfDay) : (s.setSnap c).position = s.position := rfl
@[simp] theorem State.setSnap_busResult (c : TimeOfDay) : (s.setSnap c).busResult = s.busResult := rfl

@[simp] theorem State.setBusResult_high10 (r : Option Word) : (s.setBusResult r).high10 = s.high10 := rfl
@[simp] theorem State.setBusResult_high1 (r : Option Word) : (s.setBusResult r).high1 = s.high1 := rfl
@[simp] theorem State.setBusResult_sub (r : Option Word) : (s.setBusResult r).sub = s.sub := rfl
@[simp] theorem State.setBusResult_clock (r : Option Word) : (s.setBusResult r).clock = s.clock := rfl
@[simp] theorem State.setBusResult_pending (r : Option Word) : (s.setBusResult r).pending = s.pending := rfl
@[simp] theorem State.setBusResult_snap (r : Option Word) : (s.setBusResult r).snap = s.snap := rfl
@[simp] theorem State.setBusResult_reload (r : Option Word) : (s.setBusResult r).reload = s.reload := rfl
@[simp] theorem State.setBusResult_faults (r : Option Word) : (s.setBusResult r).faults = s.faults := rfl
@[simp] theorem State.setBusResult_config (r : Option Word) : (s.setBusResult r).config = s.config := rfl
@[simp] theorem State.setBusResult_alarmBase (r : Option Word) : (s.setBusResult r).alarmBase = s.alarmBase := rfl
@[simp] theorem State.setBusResult_schedule (r : Option Word) : (s.setBusResult r).schedule = s.schedule := rfl
@[simp] theorem State.setBusResult_position (r : Option Word) : (s.setBusResult r).position = s.position := rfl
@[simp] theorem State.setBusResult_busResult (r : Option Word) : (s.setBusResult r).busResult = r := rfl

@[simp] theorem State.returnWord_high10 (d : Word) : (s.returnWord d).high10 = s.high10 := rfl
@[simp] theorem State.returnWord_high1 (d : Word) : (s.returnWord d).high1 = s.high1 := rfl
@[simp] theorem State.returnWord_sub (d : Word) : (s.returnWord d).sub = s.sub := rfl
@[simp] theorem State.returnWord_clock (d : Word) : (s.returnWord d).clock = s.clock := rfl
@[simp] theorem State.returnWord_pending (d : Word) : (s.returnWord d).pending = s.pending := rfl
@[simp] theorem State.returnWord_snap (d : Word) : (s.returnWord d).snap = s.snap := rfl
@[simp] theorem State.returnWord_reload (d : Word) : (s.returnWord d).reload = s.reload := rfl
@[simp] theorem State.returnWord_faults (d : Word) : (s.returnWord d).faults = s.faults := rfl
@[simp] theorem State.returnWord_config (d : Word) : (s.returnWord d).config = s.config := rfl
@[simp] theorem State.returnWord_alarmBase (d : Word) : (s.returnWord d).alarmBase = s.alarmBase := rfl
@[simp] theorem State.returnWord_schedule (d : Word) : (s.returnWord d).schedule = s.schedule := rfl
@[simp] theorem State.returnWord_position (d : Word) : (s.returnWord d).position = s.position := rfl
@[simp] theorem State.returnWord_busResult (d : Word) : (s.returnWord d).busResult = some d := rfl

@[simp] theorem State.returnNothing_high10 : s.returnNothing.high10 = s.high10 := rfl
@[simp] theorem State.returnNothing_high1 : s.returnNothing.high1 = s.high1 := rfl
@[simp] theorem State.returnNothing_sub : s.returnNothing.sub = s.sub := rfl
@[simp] theorem State.returnNothing_clock : s.returnNothing.clock = s.clock := rfl
@[simp] theorem State.returnNothing_pending : s.returnNothing.pending = s.pending := rfl
@[simp] theorem State.returnNothing_snap : s.returnNothing.snap = s.snap := rfl
@[simp] theorem State.returnNothing_reload : s.returnNothing.reload = s.reload := rfl
@[simp] theorem State.returnNothing_faults : s.returnNothing.faults = s.faults := rfl
@[simp] theorem State.returnNothing_config : s.returnNothing.config = s.config := rfl
@[simp] theorem State.returnNothing_alarmBase : s.returnNothing.alarmBase = s.alarmBase := rfl
@[simp] theorem State.returnNothing_schedule : s.returnNothing.schedule = s.schedule := rfl
@[simp] theorem State.returnNothing_position : s.returnNothing.position = s.position := rfl
@[simp] theorem State.returnNothing_busResult : s.returnNothing.busResult = none := rfl

@[simp] theorem State.recordFault_high10 (r : FaultRecord) : (s.recordFault r).high10 = s.high10 := rfl
@[simp] theorem State.recordFault_high1 (r : FaultRecord) : (s.recordFault r).high1 = s.high1 := rfl
@[simp] theorem State.recordFault_sub (r : FaultRecord) : (s.recordFault r).sub = s.sub := rfl
@[simp] theorem State.recordFault_clock (r : FaultRecord) : (s.recordFault r).clock = s.clock := rfl
@[simp] theorem State.recordFault_pending (r : FaultRecord) : (s.recordFault r).pending = s.pending := rfl
@[simp] theorem State.recordFault_snap (r : FaultRecord) : (s.recordFault r).snap = s.snap := rfl
@[simp] theorem State.recordFault_reload (r : FaultRecord) : (s.recordFault r).reload = s.reload := rfl
@[simp] theorem State.recordFault_faults (r : FaultRecord) : (s.recordFault r).faults = s.faults ++ [r] := rfl
@[simp] theorem State.recordFault_config (r : FaultRecord) : (s.recordFault r).config = s.config := rfl
@[simp] theorem State.recordFault_alarmBase (r : FaultRecord) : (s.recordFault r).alarmBase = s.alarmBase := rfl
@[simp] theorem State.recordFault_schedule (r : FaultRecord) : (s.recordFault r).schedule = s.schedule := rfl
@[simp] theorem State.recordFault_position (r : FaultRecord) : (s.recordFault r).position = s.position := rfl
@[simp] theorem State.recordFault_busResult (r : FaultRecord) : (s.recordFault r).busResult = s.busResult := rfl

@[simp] theorem State.expireAlarm_high10 : s.expireAlarm.high10 = s.high10 := rfl
@[simp] theorem State.expireAlarm_high1 : s.expireAlarm.high1 = s.high1 := rfl
@[simp] theorem State.expireAlarm_sub : s.expireAlarm.sub = s.sub := rfl
@[simp] theorem State.expireAlarm_clock : s.expireAlarm.clock = s.clock := rfl
@[simp] theorem State.expireAlarm_pending : s.expireAlarm.pending = s.pending := rfl
@[simp] theorem State.expireAlarm_snap : s.expireAlarm.snap = s.snap := rfl
@[simp] theorem State.expireAlarm_reload : s.expireAlarm.reload = s.reload := rfl
@[simp] theorem State.expireAlarm_faults : s.expireAlarm.faults = s.faults := rfl
@[simp] theorem State.expireAlarm_config : s.expireAlarm.config = s.config := rfl
@[simp] theorem State.expireAlarm_alarmBase : s.expireAlarm.alarmBase = s.alarmBase + s.reload := rfl
@[simp] theorem State.expireAlarm_schedule : s.expireAlarm.schedule = s.schedule := rfl
@[simp] theorem State.expireAlarm_position : s.expireAlarm.position = s.position := rfl
@[simp] theorem State.expireAlarm_busResult : s.expireAlarm.busResult = s.busResult := rfl

@[simp] theorem State.consume_high10 (o : AccessOrder) : (s.consume o).high10 = s.high10 := rfl
@[simp] theorem State.consume_high1 (o : AccessOrder) : (s.consume o).high1 = s.high1 := rfl
@[simp] theorem State.consume_sub (o : AccessOrder) : (s.consume o).sub = s.sub := rfl
@[simp] theorem State.consume_clock (o : AccessOrder) : (s.consume o).clock = s.clock := rfl
@[simp] theorem State.consume_pending (o : AccessOrder) : (s.consume o).pending = s.pending := rfl
@[simp] theorem State.consume_snap (o : AccessOrder) : (s.consume o).snap = s.snap := rfl
@[simp] theorem State.consume_reload (o : AccessOrder) : (s.consume o).reload = s.reload := rfl
@[simp] theorem State.consume_faults (o : AccessOrder) : (s.consume o).faults = s.faults := rfl
@[simp] theorem State.consume_config (o : AccessOrder) : (s.consume o).config = s.config := rfl
@[simp] theorem State.consume_alarmBase (o : AccessOrder) : (s.consume o).alarmBase = s.alarmBase := rfl
@[simp] theorem State.consume_schedule (o : AccessOrder) : (s.consume o).schedule = s.schedule.tail := rfl
@[simp] theorem State.consume_busResult (o : AccessOrder) : (s.consume o).busResult = s.busResult := rfl
@[simp] theorem State.consume_position (o : AccessOrder) : (s.consume o).position = nextPosition o s := rfl

end

end Sys2Proof.Machine
end

