-- ==== Sys2Proof/Laws/Ops.lean ====
section
/-! SUPPORT. One lemma for each shared operation that says once what it does; later proofs cite these and unfold nothing. -/

namespace Sys2Proof.Machine

/-! ### Configuration -/

@[simp] theorem Configuration_ofParams_params (p : Params) : (Configuration.ofParams p).params = p := by
  unfold Configuration.ofParams
  split <;> rfl

@[simp] theorem Configuration_ofParams_isAdmitted (p : Params) :
    (Configuration.ofParams p).isAdmitted = p.admissible := by
  unfold Configuration.ofParams
  split <;> simp_all [Configuration.isAdmitted]

/-- What admission gives: the bounds of R9. -/
theorem admitted_bounds {c : Configuration} (h : c.isAdmitted = true) :
    1 ≤ c.params.pulseWidthUs ∧ c.params.pulseWidthUs ≤ Config.periodUs - 1 ∧ 1 ≤ c.params.initialAlarmUs ∧
      1 ≤ c.params.n10 ∧ 1 ≤ c.params.n1 := by
  cases c with
  | admitted p hp =>
    simp only [Params.admissible, Bool.and_eq_true, decide_eq_true_eq] at hp
    obtain ⟨⟨⟨⟨h1, h2⟩, h3⟩, h4⟩, h5⟩ := hp
    exact ⟨h1, h2, h3, h4, h5⟩
  | rejected p hp => simp [Configuration.isAdmitted] at h

/-! ### Counter and flags (R100, R102, R103) -/

/-- The three cases of a rising edge (R100): the 1 Hz event, the first edge after it, any other edge. -/
theorem risingCount_cases (n : Fin 10) :
    n.val = 9 ∧ risingCount n = 10 ∨ n.val = 0 ∧ risingCount n = 1 ∨
      1 ≤ n.val ∧ n.val ≤ 8 ∧ risingCount n = n.val + 1 := by
  have h := n.isLt
  unfold risingCount
  omega

theorem isOneHzEvent_risingCount (n : Fin 10) : isOneHzEvent (risingCount n) = decide (n.val = 9) := by
  revert n
  decide

theorem subAfterRise_risingCount (n : Fin 10) : (subAfterRise (risingCount n)).val = (n.val + 1) % 10 := by
  revert n
  decide

theorem high1AfterRise_risingCount (n : Fin 10) (old : Bool) :
    high1AfterRise (risingCount n) old = if n.val = 9 then true else if n.val = 0 then false else old := by
  revert n old
  decide

theorem pendingAfterRise_risingCount (n : Fin 10) (old : Bool) :
    pendingAfterRise (risingCount n) old = (decide (n.val = 9) || old) := by
  revert n old
  decide

/-! ### The two edges (R100, R101) -/

section
variable (s : State)

@[simp] theorem risingEdge_high10 : (risingEdge s).high10 = true := rfl
@[simp] theorem risingEdge_high1 : (risingEdge s).high1 = high1AfterRise (risingCount s.sub) s.high1 := rfl
@[simp] theorem risingEdge_sub : (risingEdge s).sub = subAfterRise (risingCount s.sub) := rfl
@[simp] theorem risingEdge_clock :
    (risingEdge s).clock = clockAfterRise (isOneHzEvent (risingCount s.sub)) s.clock := rfl
@[simp] theorem risingEdge_pending :
    (risingEdge s).pending = pendingAfterRise (risingCount s.sub) s.pending := rfl
@[simp] theorem risingEdge_snap : (risingEdge s).snap = s.snap := rfl
@[simp] theorem risingEdge_reload : (risingEdge s).reload = s.config.params.pulseWidthUs := rfl
@[simp] theorem risingEdge_faults : (risingEdge s).faults = s.faults := rfl
@[simp] theorem risingEdge_config : (risingEdge s).config = s.config := rfl
@[simp] theorem risingEdge_alarmBase : (risingEdge s).alarmBase = s.alarmBase + s.reload := rfl
@[simp] theorem risingEdge_schedule : (risingEdge s).schedule = s.schedule := rfl
@[simp] theorem risingEdge_position : (risingEdge s).position = s.position := rfl
@[simp] theorem risingEdge_busResult : (risingEdge s).busResult = s.busResult := rfl

@[simp] theorem fallingEdge_high10 : (fallingEdge s).high10 = false := rfl
@[simp] theorem fallingEdge_high1 : (fallingEdge s).high1 = s.high1 := rfl
@[simp] theorem fallingEdge_sub : (fallingEdge s).sub = s.sub := rfl
@[simp] theorem fallingEdge_clock : (fallingEdge s).clock = s.clock := rfl
@[simp] theorem fallingEdge_pending : (fallingEdge s).pending = s.pending := rfl
@[simp] theorem fallingEdge_snap : (fallingEdge s).snap = s.snap := rfl
@[simp] theorem fallingEdge_reload :
    (fallingEdge s).reload = Config.periodUs - s.config.params.pulseWidthUs := rfl
@[simp] theorem fallingEdge_faults : (fallingEdge s).faults = s.faults := rfl
@[simp] theorem fallingEdge_config : (fallingEdge s).config = s.config := rfl
@[simp] theorem fallingEdge_alarmBase : (fallingEdge s).alarmBase = s.alarmBase + s.reload := rfl
@[simp] theorem fallingEdge_schedule : (fallingEdge s).schedule = s.schedule := rfl
@[simp] theorem fallingEdge_position : (fallingEdge s).position = s.position := rfl
@[simp] theorem fallingEdge_busResult : (fallingEdge s).busResult = s.busResult := rfl

end

/-- All a TICK_RISE can do: it runs in state LOW only, and is the rising edge (R100). -/
theorem execTickRise_next {s t : State} (h : execTickRise s = .next t) : s.high10 = false ∧ t = risingEdge s := by
  unfold execTickRise at h
  cases hh : s.high10 <;> simp_all

/-- All a TICK_FALL can do: it runs in state HIGH only, and is the falling edge (R101). -/
theorem execTickFall_next {s t : State} (h : execTickFall s = .next t) : s.high10 = true ∧ t = fallingEdge s := by
  unfold execTickFall at h
  cases hh : s.high10 <;> simp_all

/-! ### The sentence (R156, R160) -/

@[simp] theorem fmt2_length (v : Nat) : (fmt2 v).length = 2 := rfl

@[simp] theorem payload_length (t : TimeOfDay) : (payload t).length = 61 := rfl

@[simp] theorem render_length (t : TimeOfDay) : (render t).length = 67 := rfl

theorem xorBytes_append (p q : List Byte) : xorBytes (p ++ q) = xorBytes p ^^^ xorBytes q := by
  induction p with
  | nil => simp [xorBytes]
  | cons b p ih => simp [xorBytes, ih, BitVec.xor_assoc]

/-- The bytes CHECKSUM reads of a rendered sentence are its payload (R157). -/
theorem checksum_render (t : TimeOfDay) : checksum (render t) = xorBytes (payload t) := rfl

/-- All a RD_SENT can do: the byte at its index where there is one, else the BusFault (R52, R187). -/
theorem execRdSent_next {i : BitVec 7} {s t : State} (h : execRdSent i s = .next t) :
    (∃ b, (render s.snap)[i.toNat]? = some b ∧ t = s.returnWord (byteWord b)) ∨
      (67 ≤ i.toNat ∧ t = takeBusFault (sentReadWord i) 0 s) := by
  unfold execRdSent at h
  split at h
  · rename_i b hb
    exact .inl ⟨b, hb, by simpa using h.symm⟩
  · rename_i hb
    refine .inr ⟨?_, by simpa using h.symm⟩
    simpa using hb

/-! ### A BusFault (R221) -/

/-- A BusFault leaves the block state but for the list of faults (R221). -/
theorem takeBusFault_eq (op : OpWord) (d : Word) (s : State) :
    takeBusFault op d s = { s with busResult := none, faults := s.faults ++ [faultRecord op d] } := rfl

/-! ### The order of the steps (R64, R230, R239) -/

/-- What comes next while `schedule` has an entry. -/
@[simp] theorem nextEvent_of_cons {s : State} {e : Event} {es : List Event} (o : AccessOrder)
    (h : s.schedule = e :: es) : nextEvent o s = e := by
  simp [nextEvent, h]

/-- What comes next after the last entry of `schedule`. -/
@[simp] theorem nextEvent_of_nil {s : State} (o : AccessOrder) (h : s.schedule = []) :
    nextEvent o s = s.position.event o := by
  simp [nextEvent, h]

@[simp] theorem nextPosition_of_cons {s : State} {e : Event} {es : List Event} (o : AccessOrder)
    (h : s.schedule = e :: es) : nextPosition o s = s.position := by
  simp [nextPosition, h]

@[simp] theorem nextPosition_of_nil {s : State} (o : AccessOrder) (h : s.schedule = []) :
    nextPosition o s = s.position.after o := by
  simp [nextPosition, h]

/-- All an order can do at a position: its interval's next access, or, with none left, the expiry. -/
theorem OrderPosition.event_cases (o : AccessOrder) (p : OrderPosition) :
    (∃ a, (o p.interval)[p.issued]? = some a ∧ p.event o = accessEvent a ∧
        p.after o = { p with issued := p.issued + 1 }) ∨
      ((o p.interval).length ≤ p.issued ∧ p.event o = .expiry ∧
        p.after o = { interval := p.interval + 1, issued := 0 }) := by
  cases h : (o p.interval)[p.issued]? with
  | some a => exact .inl ⟨a, rfl, by simp [OrderPosition.event, h], by simp [OrderPosition.after, h]⟩
  | none => exact .inr ⟨by simpa using h, by simp [OrderPosition.event, h], by simp [OrderPosition.after, h]⟩

/-- An access of an order is one the interface has (R50, R62). -/
@[simp] theorem accessEvent_isInterface (a : Access) : (accessEvent a).isInterface = true := by
  cases a <;> simp [accessEvent, Event.isInterface]

/-- Whatever an order gives, the interface has it. -/
theorem nextEvent_isInterface {s : State} (o : AccessOrder) (h : ∀ e ∈ s.schedule, e.isInterface = true) :
    (nextEvent o s).isInterface = true := by
  cases hs : s.schedule with
  | cons e es =>
    rw [nextEvent_of_cons o hs]
    exact h e (by simp [hs])
  | nil =>
    rcases s.position.event_cases o with ⟨a, -, he, -⟩ | ⟨-, he, -⟩
    · simp [hs, he]
    · simp [hs, he, Event.isInterface]

/-! ### A step (R64, R85) -/

/-- The machine's step is the step under the open order (R230). -/
theorem step_eq_cycle (s : State) : step s = cycle Config.foregroundOrder s := rfl

/-- A step under an admitted configuration performs what was fetched (R64, R222 a). -/
theorem cycle_admitted {o : AccessOrder} {s : State} (h : s.config.isAdmitted = true) :
    cycle o s = performFetched (fetch o s) (s.consume o) := by
  unfold cycle
  split
  · simp_all [Configuration.isAdmitted]
  · rfl

/-- The cases of a run of a machine that begins with a step. -/
theorem core_run_of_step (M : Host.Core) (n : Nat) (s : M.State) :
    (∀ t, M.step s = .next t → M.run (n + 1) s = M.run n t) ∧
      (∀ r, M.step s = .fault r → M.run (n + 1) s = .fault r) ∧
      (∀ r, M.step s = .refused r → M.run (n + 1) s = .refused r) := by
  refine ⟨fun t h => ?_, fun r h => ?_, fun r h => ?_⟩ <;> simp only [Host.Core.run, h]

@[simp] theorem runUnder_zero (o : AccessOrder) (s : State) : runUnder o 0 s = .next s := rfl

theorem runUnder_succ (o : AccessOrder) (n : Nat) (s : State) :
    runUnder o (n + 1) s =
      match cycle o s with
      | .next t => runUnder o n t
      | .fault r => .fault r
      | .refused r => .refused r := rfl

/-- A run of `m + n` steps is a run of `m` and then one of `n`. -/
theorem runUnder_add {o : AccessOrder} {m : Nat} {s t : State} (h : runUnder o m s = .next t) (n : Nat) :
    runUnder o (m + n) s = runUnder o n t := by
  induction m generalizing s with
  | zero =>
    cases h
    rw [Nat.zero_add]
  | succ m ih =>
    rw [Nat.succ_add, runUnder_succ]
    rw [runUnder_succ] at h
    split at h
    · exact ih h
    · cases h
    · cases h

theorem countSteps_succ_of_next {o : AccessOrder} {p : State → Bool} {s t : State} (h : cycle o s = .next t)
    (n : Nat) : countSteps o p (n + 1) s = (if p s then 1 else 0) + countSteps o p n t := by
  simp [countSteps, h]

@[simp] theorem runSteps_zero (s : State) : runSteps 0 s = .next s := rfl

theorem runSteps_succ (n : Nat) (s : State) :
    runSteps (n + 1) s =
      match step s with
      | .next t => runSteps n t
      | .fault r => .fault r
      | .refused r => .refused r := rfl

/-- `runSteps` is the host's run of the machine. -/
theorem runSteps_eq_core_run (n : Nat) (s : State) : runSteps n s = Host.Core.run Sys2Proof.core n s := by
  induction n generalizing s with
  | zero => rfl
  | succ n ih =>
    have h := core_run_of_step Sys2Proof.core n s
    rw [runSteps_succ]
    split
    · rename_i t ht
      exact (ih t).trans (h.1 t ht).symm
    · rename_i r hr
      exact (h.2.1 r hr).symm
    · rename_i r hr
      exact (h.2.2 r hr).symm

/-- All a step can do where it answers a next state: the configuration is admitted, a word was fetched, and the step is
the meaning of the operation it names, or the BusFault of an illegal word. -/
theorem cycle_next {o : AccessOrder} {s t : State} (h : cycle o s = .next t) :
    s.config.isAdmitted = true ∧ ∃ op d, fetch o s = .word op d ∧
      ((∃ i, decode op d = .instr i ∧ exec i (s.consume o) = .next t) ∨
        (decode op d = .busFault ∧ t = takeBusFault op d (s.consume o))) := by
  unfold cycle at h
  split at h
  · simp at h
  · rename_i p hp hc
    refine ⟨by simp [hc, Configuration.isAdmitted], ?_⟩
    unfold performFetched at h
    split at h
    · rename_i op d hf
      refine ⟨op, d, hf, ?_⟩
      unfold performDecoded at h
      split at h
      · rename_i i hi
        exact .inl ⟨i, hi, h⟩
      · rename_i hi
        exact .inr ⟨hi, by simpa using h.symm⟩
      · simp at h
    · simp at h

end Sys2Proof.Machine
end

