-- ==== Sys2Proof/Laws/PerInstr.lean ====
section
/-! SUPPORT. Facts about every operation as syntax, one lemma for each constructor. -/

namespace Sys2Proof.Laws

/-- Bit 9 of an operation's word tells the two formats apart, and only a write carries data (spec 30_encoding.md R80,
R81). -/
def FormatOfWord.Statement (i : Instr) : Prop :=
  fieldF (encode i).op = i.isTick ∧
    (encode i).data.isSome = (fieldW (encode i).op && !i.isTick) ∧
    (i.isRead = true → fieldW (encode i).op = false)

theorem FormatOfWord.tickRise : FormatOfWord.Statement .tickRise := ⟨by decide, by decide, by decide⟩
theorem FormatOfWord.tickFall : FormatOfWord.Statement .tickFall := ⟨by decide, by decide, by decide⟩
theorem FormatOfWord.rdStatus : FormatOfWord.Statement .rdStatus := ⟨by decide, by decide, by decide⟩
theorem FormatOfWord.rdTime : FormatOfWord.Statement .rdTime := ⟨by decide, by decide, by decide⟩
theorem FormatOfWord.rdTake : FormatOfWord.Statement .rdTake := ⟨by decide, by decide, by decide⟩
theorem FormatOfWord.wrCmd (d : Word) : FormatOfWord.Statement (.wrCmd d) :=
  ⟨by show fieldF (fgWord true 0x03#8) = false; decide,
    by show true = (fieldW (fgWord true 0x03#8) && true); decide, by simp [Instr.isRead]⟩
theorem FormatOfWord.rdSnap : FormatOfWord.Statement .rdSnap := ⟨by decide, by decide, by decide⟩
theorem FormatOfWord.rdCsum : FormatOfWord.Statement .rdCsum := ⟨by decide, by decide, by decide⟩
theorem FormatOfWord.rdLen : FormatOfWord.Statement .rdLen := ⟨by decide, by decide, by decide⟩
theorem FormatOfWord.rdSent (k : BitVec 7) : FormatOfWord.Statement (.rdSent k) := by
  revert k
  unfold FormatOfWord.Statement
  decide

end Sys2Proof.Laws
end

