-- ==== Sys2Proof/Laws/Step.lean ====
section
/-! SUPPORT. What a step can do, once (spec 20_memory.md R64): a rising edge, a falling edge, a TAKE, a CMD write, or a step
that writes nothing but the bus result and the list of faults. -/

namespace Sys2Proof.Machine

/-- An operation's word has bit 9 exactly for the two ticks (R80). -/
theorem decode_instr_isTick {op : OpWord} {d : Word} {i : Instr} (h : decode op d = .instr i) :
    fieldF op = i.isTick := by
  unfold decode decodeWrite decodeRead at h
  split_ifs at h <;> (cases h; simp_all [Instr.isTick])

/-- Only FG words are BusFaults (R86). -/
theorem decode_busFault_isAccess {op : OpWord} {d : Word} (h : decode op d = .busFault) : fieldF op = false := by
  unfold decode decodeWrite decodeRead at h
  split_ifs at h <;> simp_all

/-- The state a TAKE leaves (R182). -/
theorem execRdTake_next {s t : State} (h : exec .rdTake s = .next t) :
    t = ((s.returnWord (takeWord s.pending s.clock)).setPending false).setSnap
      (if s.pending then s.clock else s.snap) := by
  injection h with h
  exact h.symm

/-- The state a CMD write leaves (R183). -/
theorem execWrCmd_next {d : Word} {s t : State} (h : exec (.wrCmd d) s = .next t) :
    t = (s.returnNothing.setSnap (if cmdLatch d then s.clock else s.snap)).setPending
      (pendingAfterCmd d s.pending) := by
  injection h with h
  exact h.symm

/-- Whether an operation writes no field of the block state: a read of any register but TAKE (R63). -/
def quiet : Instr → Bool
  | .rdStatus => true
  | .rdTime => true
  | .rdSnap => true
  | .rdCsum => true
  | .rdLen => true
  | .rdSent _ => true
  | .tickRise => false
  | .tickFall => false
  | .rdTake => false
  | .wrCmd _ => false

/-- What a step from `s` to `t` did. -/
inductive StepEffect (o : AccessOrder) (s t : State) : Prop
  /-- A TICK_RISE (R100). -/
  | rise (low : s.high10 = false) (op : nextInstr o s = some .tickRise) (tick : nextIsTick o s = true)
      (eq : t = risingEdge (s.consume o))
  /-- A TICK_FALL (R101). -/
  | fall (high : s.high10 = true) (op : nextInstr o s = some .tickFall) (tick : nextIsTick o s = true)
      (eq : t = fallingEdge (s.consume o))
  /-- A TAKE (R182). -/
  | take (op : nextInstr o s = some .rdTake) (access : nextIsTick o s = false)
      (eq : t = (((s.consume o).returnWord (takeWord s.pending s.clock)).setPending false).setSnap
        (if s.pending then s.clock else s.snap))
  /-- A CMD write (R183). -/
  | cmd (d : Word) (op : nextInstr o s = some (.wrCmd d)) (access : nextIsTick o s = false)
      (eq : t = ((s.consume o).returnNothing.setSnap (if cmdLatch d then s.clock else s.snap)).setPending
        (pendingAfterCmd d s.pending))
  /-- Any other access: a read without a side effect, or a BusFault (R63, R221). -/
  | other (access : nextIsTick o s = false) (noWrite : ∀ i, nextInstr o s = some i → quiet i = true) (r : Option Word)
      (l : List FaultRecord) (short : l.length ≤ 1)
      (eq : t = { s.consume o with busResult := r, faults := s.faults ++ l })

/-- A read without a side effect leaves the state but for the bus result. -/
theorem returnWord_eq (o : AccessOrder) (s : State) (w : Word) :
    (s.consume o).returnWord w = { s.consume o with busResult := some w, faults := s.faults ++ [] } := by
  simp [State.returnWord, State.setBusResult, State.consume]

/-- Every step that answers a next state has one of these effects. -/
theorem cycle_effect {o : AccessOrder} {s t : State} (h : cycle o s = .next t) : StepEffect o s t := by
  obtain ⟨-, op, d, hf, ⟨i, hi, he⟩ | ⟨hb, rfl⟩⟩ := cycle_next h
  · have hn : nextInstr o s = some i := by simp [nextInstr, hf, hi, Decoded.toInstr?]
    have ht : nextIsTick o s = i.isTick := by simp [nextIsTick, hf, decode_instr_isTick hi]
    cases i with
    | tickRise => exact .rise (execTickRise_next he).1 hn ht (execTickRise_next he).2
    | tickFall => exact .fall (execTickFall_next he).1 hn ht (execTickFall_next he).2
    | rdTake => exact .take hn ht (execRdTake_next he)
    | wrCmd d => exact .cmd d hn ht (execWrCmd_next he)
    | rdSent k =>
      rcases execRdSent_next he with ⟨b, -, rfl⟩ | ⟨-, rfl⟩
      · exact .other ht (by simp [hn, quiet]) (some (byteWord b)) [] (by simp) (returnWord_eq o s _)
      · exact .other ht (by simp [hn, quiet]) none [_] (by simp) rfl
    | rdStatus | rdTime | rdSnap | rdCsum | rdLen =>
      injection he with he
      exact .other ht (by simp [hn, quiet]) _ [] (by simp) (he.symm.trans (returnWord_eq o s _))
  · have hn : nextInstr o s = none := by simp [nextInstr, hf, hb, Decoded.toInstr?]
    exact .other (by simp [nextIsTick, hf, decode_busFault_isAccess hb]) (by simp [hn, quiet]) none [_] (by simp) rfl

/-- Every step of the machine has one of these effects, in the open order. -/
theorem step_effect {s t : State} (h : step s = .next t) : StepEffect Config.foregroundOrder s t := cycle_effect h

/-- A step takes its own entry of the order, and no step changes the parameters. -/
theorem cycle_order {o : AccessOrder} {s t : State} (h : cycle o s = .next t) :
    t.schedule = s.schedule.tail ∧ t.position = nextPosition o s ∧ t.config = s.config := by
  rcases cycle_effect h with ⟨-, -, -, rfl⟩ | ⟨-, -, -, rfl⟩ | ⟨-, -, rfl⟩ | ⟨d, -, -, rfl⟩ | ⟨-, -, r, l, -, rfl⟩ <;>
    simp

/-! ### Completion (R108, R188, R220) -/

/-- Bit 9 of a word of the foreground's format is 0 (R81). -/
@[simp] theorem fieldF_fgWord (w : Bool) (a : Offset) : fieldF (fgWord w a) = false := by
  revert w a
  decide

/-- A word of the foreground's format is an operation of the foreground or a BusFault (R86). -/
theorem decode_fgWord (w : Bool) (a : Offset) (d : Word) :
    decode (fgWord w a) d = .busFault ∨ ∃ i, decode (fgWord w a) d = .instr i ∧ i.isTick = false := by
  cases h : decode (fgWord w a) d with
  | busFault => exact .inl rfl
  | instr i => exact .inr ⟨i, rfl, (decode_instr_isTick h).symm.trans (fieldF_fgWord w a)⟩
  | reserved =>
    unfold decode decodeWrite decodeRead at h
    simp only [fieldF_fgWord, Bool.false_eq_true, if_false] at h
    split_ifs at h

/-- The block's own tick word decodes to the tick operation that runs in its state (R82). -/
theorem decode_tickWord (s : State) :
    decode (tickWord s) 0 = .instr (if s.high10 then .tickFall else .tickRise) := by
  unfold tickWord
  cases s.high10 <;> decide

/-- No operation of the foreground can fail (R220). -/
theorem exec_access_completes {i : Instr} (h : i.isTick = false) (s : State) : ∃ t, exec i s = .next t := by
  cases i with
  | tickRise | tickFall => cases h
  | rdSent k =>
    show ∃ t, execRdSent k s = .next t
    unfold execRdSent
    split <;> exact ⟨_, rfl⟩
  | rdStatus | rdTime | rdTake | wrCmd _ | rdSnap | rdCsum | rdLen => exact ⟨_, rfl⟩

/-- What one step does where an expiry or an access of 32 bits comes next: it completes, as a step of that kind. -/
theorem cycle_completes {o : AccessOrder} {s : State} (h : s.config.isAdmitted = true)
    (hi : (nextEvent o s).isInterface = true) :
    ∃ t, cycle o s = .next t ∧ nextIsTick o s = (nextEvent o s).isExpiry := by
  have access : ∀ w a d, fetch o s = .word (fgWord w a) d →
      (∃ t, cycle o s = .next t) ∧ nextIsTick o s = false := by
    intro w a d hf
    refine ⟨?_, by simp [nextIsTick, hf]⟩
    rw [cycle_admitted h, hf]
    rcases decode_fgWord w a d with hd | ⟨i, hd, ht⟩
    · exact ⟨takeBusFault (fgWord w a) d (s.consume o), by simp only [performFetched, performDecoded, hd]⟩
    · simpa only [performFetched, performDecoded, hd] using exec_access_completes ht (s.consume o)
  cases he : nextEvent o s with
  | expiry =>
    have hf : fetch o s = .word (tickWord s) 0 := by simp [fetch, he, fetchEvent]
    have hd := decode_tickWord s
    refine ⟨if s.high10 then fallingEdge (s.consume o) else risingEdge (s.consume o), ?_, ?_⟩
    · rw [cycle_admitted h, hf]
      simp only [performFetched, performDecoded, hd]
      cases hh : s.high10 <;> simp [exec, execTickRise, execTickFall, hh]
    · simp only [nextIsTick, hf, decode_instr_isTick hd, Event.isExpiry]
      cases s.high10 <;> rfl
  | busRead a width =>
    have hw : width = accessBits := by simpa [he, Event.isInterface] using hi
    obtain ⟨⟨t, ht⟩, hn⟩ := access false a 0 (by simp [fetch, he, fetchEvent, busAccess, hw])
    exact ⟨t, ht, hn⟩
  | busWrite a width d =>
    have hw : width = accessBits := by simpa [he, Event.isInterface] using hi
    obtain ⟨⟨t, ht⟩, hn⟩ := access true a d (by simp [fetch, he, fetchEvent, busAccess, hw])
    exact ⟨t, ht, hn⟩
  | namedWord w d => simp [he, Event.isInterface] at hi

end Sys2Proof.Machine
end

