-- ==== Sys2Proof/Tests/Slice0.lean ====
section
/-! SUPPORT. The model's own tests. Expected values are the spec's: 95_test_vectors.md (V-…), 30_encoding.md R84 to R86
and the rules named; then a witness for the hypotheses of each statement that has some. -/

namespace Sys2Proof.Machine.Tests

/-! ### Helpers -/

/-- The example parameters of 95_test_vectors.md, with two pins and one pin. -/
def exampleParams : Params := { pulseWidthUs := 10000, initialAlarmUs := 1000, n10 := 2, n1 := 1 }

def exampleConfig : Configuration := .admitted exampleParams (by decide)

def reset : State := State.resetWith exampleConfig

def tod (h : Fin 24) (m s : Fin 60) : TimeOfDay := { hour := h, minute := m, second := s }

/-- A state in the notation of 95_test_vectors.md: `high10 high1 sub clock pending snap`. -/
def st (high10 high1 : Bool) (sub : Fin 10) (clock : TimeOfDay) (pending : Bool) (snap : TimeOfDay) : State :=
  { reset with high10 := high10, high1 := high1, sub := sub, clock := clock, pending := pending, snap := snap }

/-- The state with these steps ordered next. -/
def ordered (s : State) (es : List Event) : State := { s with schedule := es }

/-- The order in which the foreground never accesses the block. -/
def silent : AccessOrder := fun _ => []

/-- The order with one TAKE in every alarm interval. -/
def takes : AccessOrder := fun _ => [.read 0x02#8]

def nextOf : StepOutcome → Option State
  | .next t => some t
  | .fault _ => none
  | .refused _ => none

def refusalOf : StepOutcome → Option Refusal
  | .next _ => none
  | .fault _ => none
  | .refused r => some r

/-- Whether the outcome is a next state that shows these six fields (the notation of 95_test_vectors.md) and `reload`. -/
def shows (o : StepOutcome) (high10 high1 : Bool) (sub : Fin 10) (clock : TimeOfDay) (pending : Bool) (snap : TimeOfDay)
    (reload : Nat) : Bool :=
  match nextOf o with
  | some t => t.high10 == high10 && t.high1 == high1 && decide (t.sub = sub) && decide (t.clock = clock)
      && t.pending == pending && decide (t.snap = snap) && t.reload == reload
  | none => false

/-! ### WellFormed: each check refuses an ill-formed term (R83) -/

theorem test_wellFormed_sent_67 : (Instr.rdSent 67).wellFormed = false := by decide
theorem test_wellFormed_sent_127 : (Instr.rdSent 127).wellFormed = false := by decide
theorem test_wellFormed_sent_66 : (Instr.rdSent 66).wellFormed = true := by decide
theorem test_params_pulse_0 : Params.admissible { exampleParams with pulseWidthUs := 0 } = false := by decide
theorem test_params_pulse_100000 : Params.admissible { exampleParams with pulseWidthUs := 100000 } = false := by decide
theorem test_params_pulse_bounds : Params.admissible { exampleParams with pulseWidthUs := 1 } = true ∧
    Params.admissible { exampleParams with pulseWidthUs := 99999 } = true := by decide
theorem test_params_initial_0 : Params.admissible { exampleParams with initialAlarmUs := 0 } = false := by decide
theorem test_params_n10_0 : Params.admissible { exampleParams with n10 := 0 } = false := by decide
theorem test_params_n1_0 : Params.admissible { exampleParams with n1 := 0 } = false := by decide

/-! ### Decoding: words written out from R81, R82 and R84; V-DC-1 to V-DC-9 -/

theorem test_decode_tickRise : decode 0b1000000000#10 0 = .instr .tickRise := by decide
theorem test_decode_tickFall : decode 0b1000000001#10 0 = .instr .tickFall := by decide
theorem test_decode_rdStatus : decode 0b0000000000#10 0 = .instr .rdStatus := by decide
theorem test_decode_rdTime : decode 0b0000000001#10 0 = .instr .rdTime := by decide
theorem test_decode_rdTake : decode 0b0000000010#10 0 = .instr .rdTake := by decide
theorem test_decode_wrCmd : decode 0b0100000011#10 0x3#32 = .instr (.wrCmd 0x3#32) := by decide
theorem test_decode_rdSnap : decode 0b0000000100#10 0 = .instr .rdSnap := by decide
theorem test_decode_rdCsum : decode 0b0000000101#10 0 = .instr .rdCsum := by decide
theorem test_decode_rdLen : decode 0b0000000110#10 0 = .instr .rdLen := by decide
theorem test_decode_rdSent_0 : decode 0b0010000000#10 0 = .instr (.rdSent 0) := by decide
theorem test_decode_rdSent_66 : decode 0b0011000010#10 0 = .instr (.rdSent 66) := by decide
theorem test_decode_illegal_reads : decode 0x003#10 0 = .busFault ∧ decode 0x007#10 0 = .busFault ∧
    decode 0x07F#10 0 = .busFault ∧ decode 0x0C3#10 0 = .busFault ∧ decode 0x0FF#10 0 = .busFault := by decide
theorem test_decode_illegal_writes : decode 0x100#10 1 = .busFault ∧ decode 0x104#10 0 = .busFault ∧
    decode 0x180#10 0 = .busFault := by decide
theorem test_decode_reserved : decode 0x202#10 0 = .reserved ∧ decode 0x3FF#10 0 = .reserved := by decide
theorem test_encode_rdSent_66 : encode (.rdSent 66) = { op := 0x0C2#10, data := none } := by decide
theorem test_encode_wrCmd : encode (.wrCmd 5) = { op := 0x103#10, data := some 5 } := by decide
theorem test_table_word_with_data : decodeTableWord 48 0x000000020103 = some (.wrCmd 2) := by decide
theorem test_table_word_too_long : decodeTableWord 16 0x0400 = none := by decide

/-! ### The machine of the open parameters runs from reset -/

theorem test_reset_first_expiry_is_tickRise : ∃ t, step (ordered State.reset [.expiry]) = .next t ∧ t.sub = 1 ∧ t.high10 = true :=
  ⟨_, rfl, rfl, rfl⟩
theorem test_reset_runs_placed_tickFall :
    ∃ t, step (State.reset.withFetchWord 16 0x201) = .next t ∧ t.high10 = false := ⟨_, rfl, rfl⟩
theorem test_reset_runs_placed_rdTime :
    ∃ t, step (State.reset.withFetchWord 16 0x001) = .next t ∧ t.busResult = some 0x000C0000#32 := ⟨_, rfl, by decide⟩
theorem test_placed_illegal_word_is_recorded :
    (nextOf (step (reset.withFetchWord 16 0x003))).map State.faults = some [{ op := 0x003#10, data := none }] := by decide

/-! ### Tick-domain operations: V-PE-1, 2, 5, 6, 7, 8, 11 -/

theorem test_tickRise_event : shows (cycle silent (st false false 9 (tod 23 59 59) false (tod 1 2 3))) true true 0 (tod 0 0 0) true (tod 1 2 3) 10000 = true := by decide
theorem test_tickRise_after_event : shows (cycle silent (st false true 0 (tod 12 0 1) true (tod 12 0 0))) true false 1 (tod 12 0 1) true (tod 12 0 0) 10000 = true := by decide
theorem test_tickFall_keeps_oneHz : shows (cycle silent (st true true 0 (tod 12 0 1) true (tod 12 0 0))) false true 0 (tod 12 0 1) true (tod 12 0 0) 90000 = true := by decide
theorem test_first_tick_time : (nextOf (cycle silent reset)).map (fun t => (t.alarmBase, t.nextExpiry)) =
    some (1000, 11000) := by decide

/-! ### The order of the steps: R64, R230, R239 -/

theorem test_order_access_then_expiry : nextEvent takes reset = Listing.rdTake ∧
    (nextOf (cycle takes reset)).map (nextEvent takes) = some .expiry ∧
    (nextOf (runUnder takes 2 reset)).map (fun t => (t.high10, t.position.interval)) = some (true, 1) := by decide
theorem test_schedule_stands_before_the_order : nextEvent takes (ordered reset [.expiry]) = .expiry ∧
    (nextOf (cycle takes (ordered reset [.expiry]))).map (nextEvent takes) = some Listing.rdTake := by decide

/-! ### The clock and the formatter: V-CL, V-CK, V-FG, V-RN -/

theorem test_advance_carries : advance (tod 12 0 59) = tod 12 1 0 ∧ advance (tod 12 59 59) = tod 13 0 0 ∧
    advance (tod 23 59 58) = tod 23 59 59 ∧ advance (tod 9 59 59) = tod 10 0 0 := by decide
theorem test_tod_noon : secondsOfDay (tod 12 0 0) = 43200 ∧ secondsOfDay (tod 23 59 59) = 86399 := by decide
theorem test_checksum_095_503 : checksum (render (tod 9 5 3)) = 0x57#8 ∧
    checksum (render (tod 23 59 59)) = 0x59#8 ∧ checksum (render (tod 0 0 59)) = 0x54#8 := by decide
theorem test_hex2_padding : hex2 0x0A#8 = [0x30#8, 0x41#8] ∧ hex2 0xFF#8 = [0x46#8, 0x46#8] := by decide
theorem test_fmt2 : fmt2 9 = [0x30#8, 0x39#8] ∧ fmt2 59 = [0x35#8, 0x39#8] := by decide
theorem test_render_noon : (render (tod 12 0 0)).map BitVec.toNat =
    [0x24, 0x47, 0x50, 0x52, 0x4D, 0x43, 0x2C, 0x31, 0x32, 0x30, 0x30, 0x30, 0x30, 0x2E, 0x30, 0x30,
     0x2C, 0x41, 0x2C, 0x33, 0x30, 0x30, 0x30, 0x2E, 0x30, 0x30, 0x30, 0x30, 0x2C, 0x4E, 0x2C, 0x31,
     0x32, 0x30, 0x30, 0x30, 0x2E, 0x30, 0x30, 0x30, 0x30, 0x2C, 0x45, 0x2C, 0x30, 0x2E, 0x30, 0x2C,
     0x30, 0x2E, 0x30, 0x2C, 0x30, 0x31, 0x30, 0x31, 0x32, 0x34, 0x2C, 0x2C, 0x2C, 0x41, 0x2A, 0x35,
     0x42, 0x0D, 0x0A] := by rfl

/-! ### Foreground operations: V-FO -/

theorem test_rdStatus_set : returned .rdStatus (st true true 0 (tod 12 0 1) true (tod 12 0 0)) = some 0x1#32 := by decide
theorem test_rdTime_last_second : returned .rdTime (st false false 0 (tod 23 59 59) false (tod 0 0 0)) =
    some 0x00173B3B#32 := by decide
theorem test_rdTake_set : returned .rdTake (st true true 0 (tod 12 0 1) true (tod 12 0 0)) = some 0x800C0001#32 ∧
    shows (exec .rdTake (st true true 0 (tod 12 0 1) true (tod 12 0 0))) true true 0 (tod 12 0 1) false (tod 12 0 1) 1000 = true := by decide
theorem test_rdTake_clear : returned .rdTake (st true true 0 (tod 12 0 5) false (tod 12 0 1)) = some 0x000C0005#32 ∧
    shows (exec .rdTake (st true true 0 (tod 12 0 5) false (tod 12 0 1))) true true 0 (tod 12 0 5) false (tod 12 0 1) 1000 = true := by decide
theorem test_wrCmd_latch : shows (exec (.wrCmd 0x2) (st true true 0 (tod 12 0 5) true (tod 12 0 0))) true true 0 (tod 12 0 5) true (tod 12 0 5) 1000 = true := by decide
theorem test_wrCmd_ignored_bits : shows (exec (.wrCmd 0xFFFFFFFC) (st true true 0 (tod 12 0 5) true (tod 12 0 0))) true true 0 (tod 12 0 5) true (tod 12 0 0) 1000 = true := by decide
theorem test_rdSnap : returned .rdSnap (st false false 0 (tod 1 2 3) false (tod 12 0 0)) = some 0x000C0000#32 := by decide
theorem test_rdCsum : returned .rdCsum (st false false 0 (tod 1 2 3) false (tod 0 0 0)) = some 0x58#32 := by decide
theorem test_rdLen : returned .rdLen reset = some 0x43#32 := by decide
theorem test_rdSent : returned (.rdSent 8) reset = some 0x32#32 ∧ returned (.rdSent 64) reset = some 0x42#32 := by decide

/-! ### Faults, refusals, pins: V-DC-3, V-DC-4, V-DC-9, R222, R31 -/

theorem test_write_to_status_faults :
    (nextOf (step (ordered (st true true 0 (tod 12 0 1) true (tod 12 0 0)) [.busWrite 0 32 1]))).map
      (fun t => (t.pending, t.faults)) = some (true, [{ op := 0x100#10, data := some 1 }]) := by decide
theorem test_refused_width : refusalOf (step (ordered reset [.busRead 0 8])) = some .accessWidth := by decide
theorem test_refused_reserved : refusalOf (step (ordered reset [.namedWord 0x202 0])) = some .reservedTickWord := by decide
theorem test_refused_long_word : refusalOf (step (ordered reset [.namedWord 0x400 0])) = some .notAnOperationWord := by decide
theorem test_refused_configuration :
    refusalOf (step (State.resetWith (.ofParams { exampleParams with pulseWidthUs := 0 }))) =
      some .configurationOutOfBounds := by decide
theorem test_pins : (st true false 0 (tod 0 0 0) false (tod 0 0 0)).out10 = [1#1, 1#1] ∧
    (st true false 0 (tod 0 0 0) false (tod 0 0 0)).out1 = [0#1] := by decide
theorem test_readsent_listing : Listing.readsent.length = 67 ∧ Listing.readsent[66]? = some (.busRead 0xC2 32) := by decide

/-! ### Witnesses: states and operands that meet the hypotheses of the statements -/

/-- Admitted, LOW, `sub = 9`, the flag set: the 1 Hz event is next. -/
def eventNext : State := ordered (st false true 9 (tod 12 0 1) true (tod 12 0 0)) [.expiry]

/-- Admitted, HIGH. -/
def inHigh : State := ordered (st true true 0 (tod 12 0 1) true (tod 12 0 0)) [.expiry]

/-- Admitted, at reset, an expiry next. -/
def atReset : State := ordered reset [.expiry]

theorem witness_DecodeOfEncodeIsTheOperation : (Instr.rdSent 66).wellFormed = true ∧ Instr.tickFall.wellFormed = true := by decide
theorem witness_EveryOperationHasOneWord : decode 0x0C2#10 7 = .instr (.rdSent 66) ∧ decode 0x103#10 7 = .instr (.wrCmd 7) := by decide
theorem witness_ExpiryRunsTheOperationOfTheState :
    exampleConfig.isAdmitted = true ∧ (ordered reset [.expiry]).high10 = false ∧ (ordered inHigh [.expiry]).high10 = true ∧
      (ordered inHigh [.expiry]).schedule = [.expiry] := by decide
theorem witness_StepRunsTheDecodedOperation : reset.config.isAdmitted = true ∧
    fetch Config.foregroundOrder (ordered reset [.busRead 0x80 32]) = .word 0x080#10 0 ∧ decode 0x080#10 0 = .instr (.rdSent 0) := by decide
theorem witness_AccessRunsItsRegistersOperation : reset.config.isAdmitted = true ∧ (Instr.rdSent 66).isRead = true ∧
    (encode (.rdSent 66)).op.setWidth 8 = 0xC2#8 ∧ (ordered reset [.busWrite 0x03 32 3]).schedule = [.busWrite 0x03 32 3] := by decide
theorem witness_NothingOrderedFollowsTheOpenOrder : reset.schedule = [] ∧
    takes reset.position.interval = [] ++ .read 0x02#8 :: [] ∧ reset.position.issued = 0 ∧
    (takes 0).length ≤ ({ reset with position := { interval := 0, issued := 1 } } : State).position.issued ∧
    (silent 0).length ≤ reset.position.issued := by decide
theorem witness_PlacedWordIsTheNextStep : reset.config.isAdmitted = true ∧ decodeTableWord 16 0x0C2 = some (.rdSent 66) ∧
    decodeTableWord 16 0x200 = some .tickRise ∧ decodeTableWord 16 0x201 = some .tickFall := by decide
theorem witness_ResetLeavesTheSpecifiedState : ∃ c, c.isAdmitted = true ∧ reset = State.resetWith c := ⟨exampleConfig, rfl, rfl⟩
theorem witness_TickRiseInItsThreeCases : reset.high10 = false ∧ reset.sub.val + 1 = 1 ∧ eventNext.high10 = false ∧
    eventNext.sub.val + 1 = 10 ∧ ({ reset with sub := 1 } : State).sub.val + 1 ≠ 1 ∧
    ({ reset with sub := 8 } : State).sub.val + 1 ≠ 10 := by decide
theorem witness_TickFallEndsThePulseOnly : inHigh.high10 = true ∧ inHigh.config.isAdmitted = true := by decide
theorem witness_TickOfTheOtherStateIsRefused : inHigh.high10 = true ∧ reset.high10 = false := by decide
theorem witness_SubCounterCountsModuloTen : (∃ t, exec .tickRise eventNext = .next t) ∧
    (∃ t, exec .tickRise reset = .next t) ∧ ∃ t, exec .tickFall inHigh = .next t := ⟨⟨_, rfl⟩, ⟨_, rfl⟩, ⟨_, rfl⟩⟩
theorem witness_OneHertzGroupLaw : (∃ t, step eventNext = .next t) ∧ nextIsOneHzEvent Config.foregroundOrder eventNext = true ∧
    (∃ t, step atReset = .next t ∧ t.sub.val = 1) ∧ nextInstr Config.foregroundOrder atReset = some .tickRise ∧
    (∃ t, step inHigh = .next t) ∧ nextIsOneHzEvent Config.foregroundOrder inHigh = false ∧ nextInstr Config.foregroundOrder inHigh ≠ some .tickRise :=
  ⟨⟨_, rfl⟩, by decide, ⟨_, rfl, rfl⟩, by decide, ⟨_, rfl⟩, by decide, by decide⟩
theorem witness_OverrunKeepsTheFlagAndAdvancesTheClock :
    eventNext.high10 = false ∧ eventNext.sub.val = 9 ∧ eventNext.pending = true := by decide
theorem witness_PinsOfBothGroupsChangeInOneStep :
    eventNext.high10 = false ∧ eventNext.sub.val = 9 ∧ reset.high10 = false ∧ reset.sub.val = 0 := by decide
theorem witness_AlarmIntervalsMakeOnePeriod : reset.config.isAdmitted = true ∧ reset.high10 = false := by decide
theorem witness_AdvanceIsOneSecondOfTheDay : (86399 : Nat) < 86400 ∧ (0 : Nat) < 86400 := by decide
theorem witness_ClockPeriodIsOneDay : (0 : Nat) < 86399 ∧ 86399 - 0 < 86400 ∧ (86398 : Nat) < 86399 := by decide
theorem witness_ClockMovesOnlyWithTheOneHertzEvent :
    (∃ t, step { eventNext with pending := false } = .next t ∧ t.pending = true) ∧ nextIsOneHzEvent Config.foregroundOrder eventNext = true ∧
    (∃ t, step (ordered reset [Listing.rdTime]) = .next t) ∧ nextIsTick Config.foregroundOrder (ordered reset [Listing.rdTime]) = false ∧
    nextIsOneHzEvent Config.foregroundOrder (ordered reset [Listing.rdTime]) = false :=
  ⟨⟨_, rfl, rfl⟩, by decide, ⟨_, rfl⟩, by decide, by decide⟩
theorem witness_ChecksumClosedForm : (checksum (render (tod 0 8 7))).toNat = 0x57 ∧
    (checksum (render (tod 0 0 8))).toNat = 0x50 ∧ (checksum (render (tod 0 0 25))).toNat = 0x5F := by decide
theorem witness_SentenceDeterminesTheTime : render (tod 1 2 3) = render (tod 1 2 3) := rfl
theorem witness_RdSnapReturnsTheLatch : Instr.tickFall.isTick = true ∧ ∃ t, exec .tickFall inHigh = .next t := ⟨rfl, _, rfl⟩
theorem witness_RdSentReturnsTheByte : 67 ≤ (67 : BitVec 7).toNat ∧ 67 ≤ (127 : BitVec 7).toNat ∧ (0 : BitVec 7).toNat ≤ 66 ∧ (62 : BitVec 7).toNat = 62 ∧ (63 : BitVec 7).toNat = 63 ∧
    (65 : BitVec 7).toNat = 65 ∧ (66 : BitVec 7).toNat ≤ 66 := by decide
theorem witness_SentIndexPastTheEndFaults : 67 ≤ (67 : BitVec 7).toNat ∧ 67 ≤ (127 : BitVec 7).toNat := by decide
theorem witness_SentenceRegistersFollowSnapOnly : eventNext.snap = inHigh.snap ∧ eventNext ≠ inHigh ∧ (66 : BitVec 7).toNat ≤ 66 := by decide
theorem witness_ModelFieldsOfEachOperation : (∃ t, exec .tickRise reset = .next t) ∧ Instr.tickRise.isTick = true ∧
    (∃ t, exec (.rdSent 66) reset = .next t) ∧ (Instr.rdSent 66).isRead = true ∧ (Instr.rdSent 66).wellFormed = true ∧
    (Instr.rdSent 66).isTick = false ∧ ∃ t, exec (.wrCmd 3) reset = .next t :=
  ⟨⟨_, rfl⟩, rfl, ⟨_, rfl⟩, rfl, by decide, rfl, ⟨_, rfl⟩⟩
theorem witness_BusFaultOnlyAppendsItsRecord : reset.config.isAdmitted = true ∧
    (ordered reset [.busRead 0xFF 32]).schedule = .busRead 0xFF 32 :: [] ∧ (0xFF : BitVec 8).toNat ≥ 0xC3 ∧
    (0xC3 : BitVec 8).toNat ≥ 0xC3 ∧ (0x03 : BitVec 8).toNat = 3 ∧ 7 ≤ (0x07 : BitVec 8).toNat ∧ (0x7F : BitVec 8).toNat ≤ 0x7F ∧
    (ordered reset [.busWrite 0x00 32 1]).schedule = .busWrite 0x00 32 1 :: [] ∧ (0x00 : BitVec 8).toNat ≠ 3 := by decide
theorem witness_RefusalsStopTheRun :
    (State.resetWith (.ofParams { exampleParams with pulseWidthUs := 100000 })).config =
      Configuration.ofParams { exampleParams with pulseWidthUs := 100000 } ∧ 100000 - 1 < 100000 ∧
    reset.config.isAdmitted = true ∧ 0x202 ≤ 0x3FF ∧
    (ordered reset [.namedWord 0x3FF 0]).schedule = [.namedWord 0x3FF 0] ∧
    (ordered reset [.busRead 0 64]).schedule = [.busRead 0 64] ∧
    (ordered reset [.busWrite 3 8 1]).schedule = [.busWrite 3 8 1] := by decide
theorem witness_EveryExpiryAndAccessCompletes : reset.config.isAdmitted = true ∧
    (∀ e ∈ (ordered reset [.expiry, Listing.rdTake, .busRead 0x03 32, .busWrite 0xFF 32 1]).schedule, e.isInterface = true) := by decide
theorem witness_FaultsAreStickyAndStopNothing : (∃ t, step (ordered reset [.busRead 0x03 32]) = .next t) ∧ ∃ t, step atReset = .next t :=
  ⟨⟨_, rfl⟩, ⟨_, rfl⟩⟩
theorem witness_EachFieldHasItsWriter : (∃ t, step eventNext = .next t) ∧ nextIsTick Config.foregroundOrder eventNext = true ∧
    (∃ t, step (ordered inHigh [Listing.latchclear]) = .next t) ∧ nextIsTick Config.foregroundOrder (ordered inHigh [Listing.latchclear]) = false :=
  ⟨⟨_, rfl⟩, by decide, ⟨_, rfl⟩, by decide⟩
/-- For EveryStepKeepsThePhaseInvariant, EveryStepKeepsTheReloadInvariant and EveryStepKeepsTheTimeline. -/
theorem witness_EveryStepKeepsTheInvariants : PhaseInv atReset ∧ ReloadInv atReset ∧ Timeline 0 atReset ∧ ∃ t, step atReset = .next t := by
  refine ⟨by simp [PhaseInv, atReset, ordered, reset, State.resetWith], by simp [ReloadInv, atReset, ordered, reset, State.resetWith], ?_, _, rfl⟩
  refine ⟨rfl, by decide, by simp [atReset, ordered, reset, State.resetWith], by simp [atReset, ordered, reset, State.resetWith], fun _ => .inl ⟨rfl, rfl, rfl⟩⟩
theorem witness_TicksAlternateAtTheirTimes : exampleConfig.isAdmitted = true := by decide
theorem witness_TenHertzWaveform : exampleConfig.isAdmitted = true := by decide
theorem witness_RisingEdgeNumbering : exampleConfig.isAdmitted = true ∧ (1 : Nat) ≤ 1 ∧ (1 : Nat) ≤ 10 := by decide
theorem witness_OneHertzWaveform : exampleConfig.isAdmitted = true ∧ (1 : Nat) ≤ 1 := by decide
theorem witness_ClockAgainstEdges : exampleConfig.isAdmitted = true ∧ (1 : Nat) ≤ 1 ∧ (1 : Nat) ≤ 10 := by decide
theorem witness_EveryOrderHasTheWaveforms :
    (∃ t, runUnder takes 3 { State.resetWith exampleConfig with schedule := [.expiry] } = .next t) ∧
    ticksIn takes 3 { State.resetWith exampleConfig with schedule := [.expiry] } = 2 := ⟨⟨_, rfl⟩, by decide⟩
/-- For TheAlarmFiresForEver, AFairForegroundAccessesForEver and TakeReturnsTheFlagAgainAndAgain. -/
theorem witness_FairOrder : ForegroundFair takes ∧ Recurs (.read 0x02#8) takes ∧
    (∀ k d, Access.write 0x03#8 d ∈ takes k → d.getLsbD 0 = false) ∧ reset.config.isAdmitted = true ∧
    ∀ e ∈ (ordered reset [Listing.clear, .busRead 0x03 32]).schedule, e.isInterface = true :=
  ⟨fun k => ⟨k, Nat.le_refl k, by simp [takes]⟩, fun k => ⟨k, Nat.le_refl k, by simp [takes]⟩, by simp [takes], rfl,
    by decide⟩
theorem witness_NoSetOfPendingIsLost : inHigh.pending = true ∧ ∃ t, runSteps 1 (ordered inHigh [Listing.rdTake]) = .next t :=
  ⟨rfl, _, rfl⟩
theorem witness_AccessesDoNotDisturbTheTickDomain : reset.config.isAdmitted = true ∧
    ∀ e ∈ [Event.expiry, Listing.clear, .busRead 0x7F 32, .expiry], e.isInterface = true := by decide
theorem witness_SplitClearLosesTheEventAndTakeDoesNot : eventNext.config.isAdmitted = true ∧ eventNext.high10 = false ∧
    eventNext.sub.val = 9 ∧
    (ordered eventNext [Listing.latch, Listing.tick, Listing.clear]).schedule = Listing.latch :: Listing.tick :: Listing.clear :: [] ∧
    (ordered eventNext [Listing.tick, Listing.rdTake]).schedule = Listing.tick :: Listing.rdTake :: [] := by decide

end Sys2Proof.Machine.Tests
end

/-! # The family of 10_state.md: writers (R38), the invariants of R39 and R40, and the pins of R31 -/

namespace Sys2Proof.Machine

section
variable {o : AccessOrder} {s t : State}

/-! ### Who writes what (R38) -/

/-- What an access leaves: the tick domain's fields, the alarm's time base and the parameters. -/
def SameTimebase (s t : State) : Prop :=
  SameTickDomain s t ∧ t.alarmBase = s.alarmBase ∧ t.config = s.config

/-- All a step can do to the fields of the tick domain: a rising edge in state LOW, a falling edge in state HIGH, or, as
an access, nothing. -/
theorem StepEffect.edge_or_sameTimebase (h : StepEffect o s t) :
    (s.high10 = false ∧ nextIsTick o s = true ∧ t = risingEdge (s.consume o)) ∨
      (s.high10 = true ∧ nextIsTick o s = true ∧ t = fallingEdge (s.consume o)) ∨
      (nextIsTick o s = false ∧ SameTimebase s t) := by
  cases h with
  | rise low _ tick eq => exact .inl ⟨low, tick, eq⟩
  | fall high _ tick eq => exact .inr (.inl ⟨high, tick, eq⟩)
  | take _ access eq | cmd _ _ access eq | other access _ _ _ _ eq =>
    subst eq
    exact .inr (.inr ⟨access, by simp [SameTimebase, SameTickDomain]⟩)

/-- A CMD write never sets the flag (R183). -/
theorem pending_of_pendingAfterCmd {d : Word} {old : Bool} (h : pendingAfterCmd d old = true) : old = true := by
  unfold pendingAfterCmd at h
  split at h
  · cases h
  · exact h

/-- The foreground only clears `pending` (R38). -/
theorem StepEffect.access_pending (h : StepEffect o s t) (access : nextIsTick o s = false)
    (hp : t.pending = true) : s.pending = true := by
  cases h with
  | rise _ _ tick _ | fall _ _ tick _ => simp [access] at tick
  | take _ _ eq => simp [eq] at hp
  | cmd d _ _ eq => exact pending_of_pendingAfterCmd (d := d) (by simpa [eq] using hp)
  | other _ _ _ _ _ eq => simpa [eq] using hp

/-- A step of the tick domain leaves the SNAP latch and never clears `pending` (R38). -/
theorem StepEffect.tick_snap_pending (h : StepEffect o s t) (tick : nextIsTick o s = true) :
    t.snap = s.snap ∧ (s.pending = true → t.pending = true) := by
  rcases h.edge_or_sameTimebase with ⟨-, -, rfl⟩ | ⟨-, -, rfl⟩ | ⟨access, -⟩
  · refine ⟨by simp, fun hp => ?_⟩
    simp [pendingAfterRise_risingCount, hp]
  · simp
  · simp [tick] at access

/-! ### The phase invariant (R39) -/

/-- The phase invariant speaks of two fields of the tick domain only. -/
theorem PhaseInv.of_sameTickDomain (hs : PhaseInv s) (h : SameTickDomain s t) : PhaseInv t := by
  obtain ⟨-, hhigh1, hsub, -, -⟩ := h
  unfold PhaseInv
  rw [hhigh1, hsub]
  exact hs

/-- A rising edge sets the 1 Hz group as it clears `sub`, clears it at count 1, and keeps it at a count at which the
invariant says that it is already inactive. -/
theorem PhaseInv.after_risingEdge (hs : PhaseInv s) : PhaseInv (risingEdge s) := by
  intro hhigh1
  rw [risingEdge_high1, high1AfterRise_risingCount] at hhigh1
  rcases risingCount_cases s.sub with ⟨h9, -⟩ | ⟨h0, -⟩ | ⟨hlow, hhigh, -⟩
  · apply Fin.ext
    rw [risingEdge_sub, subAfterRise_risingCount, h9]
    rfl
  · simp [h0] at hhigh1
  · have hold : s.high1 = true := by
      simpa [show s.sub.val ≠ 9 by omega, show s.sub.val ≠ 0 by omega] using hhigh1
    have hsub : s.sub.val = 0 := congrArg Fin.val (hs hold)
    omega

theorem PhaseInv.after_step (hs : PhaseInv s) (h : StepEffect o s t) : PhaseInv t := by
  rcases h.edge_or_sameTimebase with ⟨-, -, rfl⟩ | ⟨-, -, rfl⟩ | ⟨-, hsame, -⟩
  · exact PhaseInv.after_risingEdge (s := s.consume o) hs
  · exact hs
  · exact hs.of_sameTickDomain hsame

/-! ### The reload invariant (R40) -/

/-- The reload invariant speaks of the tick domain, the time base and the parameters only. -/
theorem ReloadInv.of_sameTimebase (hs : ReloadInv s) (h : SameTimebase s t) : ReloadInv t := by
  obtain ⟨⟨hhigh10, -, -, -, hreload⟩, hbase, hconfig⟩ := h
  unfold ReloadInv
  rw [hhigh10, hreload, hbase, hconfig]
  exact hs

/-- The next expiry is never at time 0, since the first interval is at least 1 (R9): `alarmBase` tells the states before
the first tick from those after it. -/
theorem ReloadInv.nextExpiry_ne_zero (hs : ReloadInv s) (hc : s.config.isAdmitted = true) :
    s.alarmBase + s.reload ≠ 0 := by
  obtain ⟨hfirst, -, -⟩ := hs
  obtain ⟨-, -, hinitial, -, -⟩ := admitted_bounds hc
  intro hzero
  have hreload := (hfirst (by omega)).2
  omega

/-- A rising edge programs the interval of state HIGH (R100). -/
theorem ReloadInv.after_risingEdge (hbase : s.alarmBase + s.reload ≠ 0) : ReloadInv (risingEdge s) :=
  ⟨fun h => absurd h hbase, fun _ _ => risingEdge_reload s, fun _ h => by simp at h⟩

/-- A falling edge programs the interval of state LOW (R101). -/
theorem ReloadInv.after_fallingEdge (hbase : s.alarmBase + s.reload ≠ 0) : ReloadInv (fallingEdge s) :=
  ⟨fun h => absurd h hbase, fun _ h => by simp at h, fun _ _ => fallingEdge_reload s⟩

theorem ReloadInv.after_step (hs : ReloadInv s) (hc : s.config.isAdmitted = true) (h : StepEffect o s t) :
    ReloadInv t := by
  have hbase := hs.nextExpiry_ne_zero hc
  rcases h.edge_or_sameTimebase with ⟨-, -, rfl⟩ | ⟨-, -, rfl⟩ | ⟨-, hsame⟩
  · exact ReloadInv.after_risingEdge (s := s.consume o) hbase
  · exact ReloadInv.after_fallingEdge (s := s.consume o) hbase
  · exact hs.of_sameTimebase hsame

end

/-! ### Reset (R250) -/

theorem phaseInv_resetWith (c : Configuration) : PhaseInv (State.resetWith c) := by
  intro h
  cases h

theorem reloadInv_resetWith (c : Configuration) : ReloadInv (State.resetWith c) :=
  ⟨fun _ => ⟨rfl, rfl⟩, fun h => absurd rfl h, fun h => absurd rfl h⟩

/-- Reset stands before the first rising edge, with the clock at SEED. -/
theorem timeline_zero_resetWith (c : Configuration) : Timeline 0 (State.resetWith c) := by
  refine ⟨rfl, ?_, ?_, ?_, fun _ => .inl ⟨rfl, rfl, rfl⟩⟩
  · show secondsOfDay Config.seed = (secondsOfDay Config.seed + 0 / 10) % secondsPerDay
    decide
  · simp [State.resetWith]
  · intro h
    cases h

/-! ### The pins (R31) -/

theorem activeLevel_eq (b : Bool) : activeLevel b = if b then 1#1 else 0#1 := by
  cases b <;> rfl

/-- Every pin of the 10 Hz group is at the level of `high10`. -/
theorem eq_of_mem_out10 {s : State} {l : BitVec 1} (h : l ∈ s.out10) : l = if s.high10 then 1#1 else 0#1 :=
  (List.eq_of_mem_replicate h).trans (activeLevel_eq _)

/-- Every pin of the 1 Hz group is at the level of `high1`. -/
theorem eq_of_mem_out1 {s : State} {l : BitVec 1} (h : l ∈ s.out1) : l = if s.high1 then 1#1 else 0#1 :=
  (List.eq_of_mem_replicate h).trans (activeLevel_eq _)

/-- In state LOW a TICK_RISE is the rising edge (R100). -/
theorem exec_tickRise_of_low {s : State} (h : s.high10 = false) : exec .tickRise s = .next (risingEdge s) := by
  simp [exec, execTickRise, h]

/-- After a rising edge every pin of the 10 Hz group is active (R105). -/
theorem out10_risingEdge {s : State} {l : BitVec 1} (h : l ∈ (risingEdge s).out10) : l = 1#1 := by
  simpa using eq_of_mem_out10 h

/-! ### The statements settled -/

/-- Settles O46: of the steps only the rising edge writes `high1` or `sub`, and its three cases (R100) keep R39. -/
theorem everyStepKeepsThePhaseInvariant : Obligations.EveryStepKeepsThePhaseInvariant :=
  fun _ _ hs h => hs.after_step (step_effect h)

/-- Settles O47: an edge programs the interval of the state it enters, at a time that is not 0 because the configuration
of a step that answers is admitted. -/
theorem everyStepKeepsTheReloadInvariant : Obligations.EveryStepKeepsTheReloadInvariant :=
  fun _ _ hs h => hs.after_step (cycle_next h).1 (step_effect h)

/-- Settles O44, by the effects a step can have. -/
theorem eachFieldHasItsWriter : Obligations.EachFieldHasItsWriter := by
  intro s t h
  have heffect := step_effect h
  refine ⟨fun access => ⟨?_, heffect.access_pending access⟩, heffect.tick_snap_pending⟩
  rcases heffect.edge_or_sameTimebase with ⟨-, tick, -⟩ | ⟨-, tick, -⟩ | ⟨-, hsame, -⟩
  · simp [access] at tick
  · simp [access] at tick
  · exact hsame

/-- Settles O18: the pins are the levels of the two flags, and the rising edge writes both flags at once. -/
theorem pinsOfBothGroupsChangeInOneStep : Obligations.PinsOfBothGroupsChangeInOneStep := by
  refine ⟨fun s => ⟨List.length_replicate, List.length_replicate, fun _ => eq_of_mem_out10, fun _ => eq_of_mem_out1⟩,
    fun s low => ⟨fun h9 => ?event, fun h0 => ?first⟩⟩
  case event =>
    refine ⟨risingEdge s, exec_tickRise_of_low low, fun _ => out10_risingEdge, fun l hl => ?_⟩
    simpa [high1AfterRise_risingCount, h9] using eq_of_mem_out1 hl
  case first =>
    refine ⟨risingEdge s, exec_tickRise_of_low low, fun _ => out10_risingEdge, fun l hl => ?_⟩
    simpa [high1AfterRise_risingCount, h0] using eq_of_mem_out1 hl

/-- Settles O45, one conjunct for each of the three. -/
theorem resetMeetsTheInvariants : Obligations.ResetMeetsTheInvariants :=
  fun c => ⟨phaseInv_resetWith c, reloadInv_resetWith c, timeline_zero_resetWith c⟩

end Sys2Proof.Machine

/-! # The family of 20_memory.md: the step of an access (R52, R64, R81), the TIME layout (R54), the access past the
sentence's end (R52) and the handoff of `pending` (R67) -/

namespace Sys2Proof.Machine

/-! ### The fields of a foreground word (R81) -/

@[simp] theorem fieldW_fgWord (w : Bool) (a : Offset) : fieldW (fgWord w a) = w := by
  revert w a
  decide

@[simp] theorem fieldA_fgWord (w : Bool) (a : Offset) : fieldA (fgWord w a) = a := by
  revert w a
  decide

@[simp] theorem setWidth_fgWord (w : Bool) (a : Offset) : (fgWord w a).setWidth 8 = a := by
  revert w a
  decide

/-- A read's word decodes by its offset alone (R85). -/
theorem decode_fgWord_read (a : Offset) (d : Word) : decode (fgWord false a) d = decodeRead a := by
  simp [decode]

/-- A write's word decodes by its offset and the data beside it (R85). -/
theorem decode_fgWord_write (a : Offset) (d : Word) : decode (fgWord true a) d = decodeWrite a d := by
  simp [decode]

/-- The offsets of SENT are those with bit 7 set, up to its last byte (R52, R83). -/
theorem decodeRead_sent (i : BitVec 7) :
    decodeRead (1#1 ++ i) = if i.toNat < Config.sentLen then .instr (.rdSent i) else .busFault := by
  revert i
  decide

/-- A read operation's word is a read at some offset, and where the operation is well-formed that offset decodes to it
(R52, R84). -/
theorem encode_read {i : Instr} (hread : i.isRead = true) :
    ∃ a, (encode i).op = fgWord false a ∧ (i.wellFormed = true → decodeRead a = .instr i) := by
  cases i with
  | tickRise | tickFall | wrCmd _ => cases hread
  | rdSent k => exact ⟨1#1 ++ k, rfl, fun hwf => by
      simpa [decodeRead_sent, Instr.wellFormed] using hwf⟩
  | rdStatus | rdTime | rdTake | rdSnap | rdCsum | rdLen => exact ⟨_, rfl, fun _ => rfl⟩

/-! ### The step that was ordered (R64, R81) -/

section
variable {o : AccessOrder} {s t : State}

theorem fetch_of_cons {e : Event} {es : List Event} (o : AccessOrder) (h : s.schedule = e :: es) :
    fetch o s = fetchEvent s e := by
  rw [fetch, nextEvent_of_cons o h]

/-- An entry of `schedule` is taken without a move in the open order (log entry 1). -/
theorem consume_of_cons {e : Event} {es : List Event} (o : AccessOrder) (h : s.schedule = e :: es) :
    s.consume o = { s with schedule := es } := by
  simp [State.consume, h, nextPosition_of_cons o h]

/-- With `schedule` empty it is the position in the order that moves (log entry 1). -/
theorem consume_of_nil (o : AccessOrder) (h : s.schedule = []) :
    s.consume o = { s with position := s.position.after o } := by
  simp [State.consume, h]

/-- A step whose word decodes to an operation is that operation's meaning (R64, R85). -/
theorem cycle_of_decode {op : OpWord} {d : Word} {i : Instr} (hconfig : s.config.isAdmitted = true)
    (hfetch : fetch o s = .word op d) (hdecode : decode op d = .instr i) : cycle o s = exec i (s.consume o) := by
  rw [cycle_admitted hconfig, hfetch]
  simp only [performFetched, performDecoded, hdecode]

/-- The step of an ordered entry whose word decodes to an operation. -/
theorem step_of_ordered {e : Event} {es : List Event} {op : OpWord} {d : Word} {i : Instr}
    (hconfig : s.config.isAdmitted = true) (hs : s.schedule = e :: es) (hfetch : fetchEvent s e = .word op d)
    (hdecode : decode op d = .instr i) : step s = exec i { s with schedule := es } := by
  rw [step_eq_cycle, cycle_of_decode hconfig ((fetch_of_cons _ hs).trans hfetch) hdecode, consume_of_cons _ hs]

/-- An access of 32 bits is never refused for its width (R62). -/
@[simp] theorem busAccess_accessBits (op : OpWord) (d : Word) : busAccess accessBits op d = .word op d := rfl

/-! ### The loss of a property on a run -/

/-- A run that answers is one step that answers, and then the rest of the run. -/
theorem runUnder_succ_next {n : Nat} (h : runUnder o (n + 1) s = .next t) :
    ∃ u, cycle o s = .next u ∧ runUnder o n u = .next t := by
  rw [runUnder_succ] at h
  split at h
  · exact ⟨_, ‹_›, h⟩
  · cases h
  · cases h

theorem runUnder_succ_of_next {u : State} (h : cycle o s = .next u) (n : Nat) :
    runUnder o (n + 1) s = runUnder o n u := by
  rw [runUnder_succ, h]

/-- A property that holds where a run begins holds where it ends, or a step of the run loses it. -/
theorem holds_or_lost_on_run (P : State → Prop) {n : Nat} (hs : P s) (h : runUnder o n s = .next t) :
    P t ∨ ∃ m u v, m < n ∧ runUnder o m s = .next u ∧ runUnder o (m + 1) s = .next v ∧ cycle o u = .next v ∧
      P u ∧ ¬ P v := by
  induction n generalizing s with
  | zero =>
    cases h
    exact .inl hs
  | succ n ih =>
    obtain ⟨s', hstep, hrest⟩ := runUnder_succ_next h
    have hfirst := runUnder_succ_of_next hstep
    by_cases hs' : P s'
    · rcases ih hs' hrest with ht | ⟨m, u, v, hm, hu, hv, hlost⟩
      · exact .inl ht
      · exact .inr ⟨m + 1, u, v, by omega, (hfirst m).trans hu, (hfirst (m + 1)).trans hv, hlost⟩
    · exact .inr ⟨0, s, s', by omega, rfl, hfirst 0, hstep, hs, hs'⟩

/-! ### What clears `pending` (R67) -/

/-- Bit 31 of a TAKE's word is the flag it found (R55). -/
@[simp] theorem takeWord_flag (old : Bool) (c : TimeOfDay) : (takeWord old c).getLsbD 31 = old := by
  unfold takeWord
  rw [BitVec.getLsbD_append, if_neg (by decide), BitVec.getLsbD_append, if_neg (by decide)]
  simp

/-- Only CLEAR makes a CMD write clear the flag (R183). -/
theorem clear_of_pendingAfterCmd {d : Word} {old : Bool} (hold : old = true) (h : pendingAfterCmd d old ≠ true) :
    d.getLsbD 0 = true := by
  unfold pendingAfterCmd at h
  split at h
  · assumption
  · exact absurd hold h

/-- The step from `u` to `v` is a TAKE that returns bit 31 = 1, or a CMD write with CLEAR (R182, R183). -/
def TakesPending (o : AccessOrder) (u v : State) : Prop :=
  (nextInstr o u = some .rdTake ∧ ∃ d, v.busResult = some d ∧ d.getLsbD 31 = true) ∨
    ∃ d, nextInstr o u = some (.wrCmd d) ∧ d.getLsbD 0 = true

/-- A step that loses the flag hands it to the foreground. -/
theorem StepEffect.takesPending (h : StepEffect o s t) (hs : s.pending = true) (ht : t.pending ≠ true) :
    TakesPending o s t := by
  have hkeep := h.tick_snap_pending
  cases h with
  | rise _ _ tick _ | fall _ _ tick _ => exact absurd ((hkeep tick).2 hs) ht
  | take op _ eq => exact .inl ⟨op, takeWord s.pending s.clock, by simp [eq], by simp [hs]⟩
  | cmd d op _ eq => exact .inr ⟨d, op, clear_of_pendingAfterCmd hs (by simpa [eq] using ht)⟩
  | other _ _ _ _ _ eq => exact absurd (by simpa [eq] using hs) ht

end

/-! ### The layout of TIME (R54) -/

theorem toNat_append_eq_add {m n : Nat} (x : BitVec m) (y : BitVec n) :
    (x ++ y).toNat = x.toNat * 2 ^ n + y.toNat := by
  rw [BitVec.toNat_append, ← Nat.shiftLeft_add_eq_or_of_lt y.isLt, Nat.shiftLeft_eq]

/-- The time layout as a number: no field reaches into the next (R37, R54). -/
theorem timeWord_toNat (c : TimeOfDay) :
    (timeWord c).toNat = c.hour.val * 0x10000 + c.minute.val * 0x100 + c.second.val := by
  have hhour := c.hour.isLt
  have hminute := c.minute.isLt
  have hsecond := c.second.isLt
  unfold timeWord
  rw [toNat_append_eq_add, toNat_append_eq_add, toNat_append_eq_add, toNat_append_eq_add, toNat_append_eq_add]
  simp only [BitVec.toNat_ofNat]
  omega

/-- A field of the time layout, as a quotient and a remainder of its number. -/
theorem timeWord_extract_toNat (c : TimeOfDay) (start len : Nat) :
    ((timeWord c).extractLsb' start len).toNat =
      (c.hour.val * 0x10000 + c.minute.val * 0x100 + c.second.val) / 2 ^ start % 2 ^ len := by
  rw [BitVec.extractLsb'_toNat, timeWord_toNat, Nat.shiftRight_eq_div_pow]

/-! ### A SENT read past the end (R52, log entry 16) -/

theorem sentReadWord_eq (i : BitVec 7) : sentReadWord i = 0x080#10 + i.setWidth 10 := by
  revert i
  decide

/-- A faulted SENT read's record is that of a read: it holds no data (R221). -/
theorem faultRecord_sentReadWord (i : BitVec 7) (d : Word) :
    faultRecord (sentReadWord i) d = { op := sentReadWord i, data := none } := by
  have hread : fieldW (sentReadWord i) = false := fieldW_fgWord false (1#1 ++ i)
  simp [faultRecord, hread]

/-- Past its last byte the sentence has nothing to return (R52, R187). -/
theorem execRdSent_of_ge {i : BitVec 7} (h : 67 ≤ i.toNat) (s : State) :
    execRdSent i s = .next (takeBusFault (sentReadWord i) 0 s) := by
  have hnone : (render s.snap)[i.toNat]? = none := by simpa using h
  simp only [execRdSent, hnone]

/-! ### The statements settled -/

/-- Settles O58: the flag is set still, or a first step of the run loses it, and of the effects a step can have only a
TAKE and a CMD write with CLEAR do. -/
theorem noSetOfPendingIsLost : Obligations.NoSetOfPendingIsLost := by
  intro n s t hs hrun
  rcases holds_or_lost_on_run (fun r => r.pending = true) hs hrun with ht | ⟨m, u, v, hm, hu, hv, hstep, hpu, hpv⟩
  · exact .inl ht
  · exact .inr ⟨m, u, v, hm, hu, hv, hpu, (cycle_effect hstep).takesPending hpu hpv⟩

/-- Settles O8: the offset of a read operation's word decodes to the operation, and 0x03 is the offset of CMD. -/
theorem accessRunsItsRegistersOperation : Obligations.AccessRunsItsRegistersOperation := by
  intro s rest i hconfig hwf
  constructor
  · intro hread hs
    obtain ⟨a, hop, hdecode⟩ := encode_read hread
    rw [hop, setWidth_fgWord] at hs
    exact step_of_ordered hconfig hs (busAccess_accessBits _ _) ((decode_fgWord_read a 0).trans (hdecode hwf))
  · rintro d rfl hs
    exact step_of_ordered hconfig hs (busAccess_accessBits _ _) (decode_fgWord_write 0x03#8 d)

/-- Settles O30: each field is a quotient and a remainder of the layout's number. -/
theorem timeRegisterLayout : Obligations.TimeRegisterLayout := by
  refine ⟨fun s => ⟨timeWord s.clock, rfl, ?_⟩, rfl⟩
  have hhour := s.clock.hour.isLt
  have hminute := s.clock.minute.isLt
  have hsecond := s.clock.second.isLt
  simp only [← BitVec.toNat_inj, timeWord_extract_toNat, BitVec.ofNat_eq_ofNat, BitVec.toNat_ofNat]
  omega

/-- Settles O37: the sentence has 67 bytes, so the access takes the BusFault of its word. -/
theorem sentIndexPastTheEndFaults : Obligations.SentIndexPastTheEndFaults := by
  intro i hi s
  show execRdSent i s = _
  rw [execRdSent_of_ge hi, takeBusFault_eq, faultRecord_sentReadWord, sentReadWord_eq]

/-- Settles O7, by the two places the ordered step is taken from. -/
theorem stepRunsTheDecodedOperation : Obligations.StepRunsTheDecodedOperation := by
  intro s op d i hconfig hfetch hdecode
  have hstep : step s = exec i (s.consume Config.foregroundOrder) := cycle_of_decode hconfig hfetch hdecode
  exact ⟨fun _ _ hs => by rw [hstep, consume_of_cons _ hs], fun hs => by rw [hstep, consume_of_nil _ hs]⟩

end Sys2Proof.Machine

/-! # The family of 30_encoding.md: the decoder and the encoder (R80 to R86), the word of an expiry (R82), and the frame of
the model's own fields (log entries 1 to 4) -/

namespace Sys2Proof.Machine

/-! ### Words by value (R80 to R83) -/

/-- A bit read as a Boolean and written back as a number. -/
theorem toNat_decide_eq_one {n : Nat} (h : n = 0 ∨ n = 1) : (decide (n = 1)).toNat = n := by
  rcases h with rfl | rfl <;> rfl

/-- Format TK is the upper half of the words (R80). -/
theorem fieldF_eq_decide (op : OpWord) : fieldF op = decide (512 ≤ op.toNat) := by
  have hlt := op.isLt
  rw [fieldF, BitVec.getLsbD, Nat.testBit_eq_decide_div_mod_eq, decide_eq_decide]
  omega

theorem fieldW_eq_decide (op : OpWord) : fieldW op = decide (op.toNat / 256 % 2 = 1) := by
  rw [fieldW, BitVec.getLsbD, Nat.testBit_eq_decide_div_mod_eq]

theorem fieldH_eq_decide (op : OpWord) : fieldH op = decide (op.toNat % 2 = 1) := by
  rw [fieldH, BitVec.getLsbD, Nat.testBit_eq_decide_div_mod_eq, pow_zero, Nat.div_one]

theorem toNat_fieldA (op : OpWord) : (fieldA op).toNat = op.toNat % 256 := by
  rw [fieldA, BitVec.extractLsb'_toNat, Nat.shiftRight_zero]

theorem toNat_fieldZero (op : OpWord) : (fieldZero op).toNat = op.toNat / 2 % 256 := by
  rw [fieldZero, BitVec.extractLsb'_toNat, Nat.shiftRight_eq_div_pow]

theorem toNat_sentIndex (a : Offset) : (sentIndex a).toNat = a.toNat % 128 := by
  rw [sentIndex, BitVec.extractLsb'_toNat, Nat.shiftRight_zero]

/-- The offsets with bit 7 set are the upper half. -/
theorem bit7_eq_decide (a : Offset) : a.getLsbD 7 = decide (128 ≤ a.toNat) := by
  have hlt := a.isLt
  rw [BitVec.getLsbD, Nat.testBit_eq_decide_div_mod_eq, decide_eq_decide]
  omega

theorem toNat_fgWord (w : Bool) (a : Offset) : (fgWord w a).toNat = w.toNat * 256 + a.toNat := by
  rw [fgWord, toNat_append_eq_add, toNat_append_eq_add]
  simp

theorem toNat_tkWord (h : Bool) : (tkWord h).toNat = 512 + h.toNat := by
  cases h <;> rfl

/-! ### The three kinds of words (R81, R82, R86) -/

/-- A word with `F = 0` is the FG word of its fields (R81). -/
theorem eq_fgWord_of_fieldF {op : OpWord} (hF : fieldF op = false) : op = fgWord (fieldW op) (fieldA op) := by
  rw [fieldF_eq_decide, decide_eq_false_iff_not] at hF
  apply BitVec.eq_of_toNat_eq
  rw [toNat_fgWord, toNat_fieldA, fieldW_eq_decide, toNat_decide_eq_one (Nat.mod_two_eq_zero_or_one _)]
  omega

/-- A word with `F = 1` and zeros in bits 8:1 is the TK word of its bit `H` (R82). -/
theorem eq_tkWord_of_fieldF {op : OpWord} (hF : fieldF op = true) (hzero : fieldZero op = 0#8) :
    op = tkWord (fieldH op) := by
  have hlt := op.isLt
  rw [fieldF_eq_decide, decide_eq_true_eq] at hF
  rw [← BitVec.toNat_inj, toNat_fieldZero, BitVec.toNat_ofNat] at hzero
  apply BitVec.eq_of_toNat_eq
  rw [toNat_tkWord, fieldH_eq_decide, toNat_decide_eq_one (Nat.mod_two_eq_zero_or_one _)]
  omega

/-- Any other word is reserved, whatever stands beside it, and is 0x202 or above (R86). -/
theorem decode_reserved_of_fields {op : OpWord} (hF : fieldF op = true) (hzero : fieldZero op ≠ 0#8) :
    0x202 ≤ op.toNat ∧ ∀ d, decode op d = .reserved := by
  refine ⟨?_, fun d => by simp only [decode, hF, hzero, if_true, if_false]⟩
  rw [fieldF_eq_decide, decide_eq_true_eq] at hF
  rw [ne_eq, ← BitVec.toNat_inj, toNat_fieldZero, BitVec.toNat_ofNat] at hzero
  omega

/-- Every word is of format FG, or of format TK, or reserved. -/
theorem word_cases (op : OpWord) :
    (∃ w a, op = fgWord w a) ∨ (∃ h, op = tkWord h) ∨ (0x202 ≤ op.toNat ∧ ∀ d, decode op d = .reserved) := by
  cases hF : fieldF op with
  | false => exact .inl ⟨_, _, eq_fgWord_of_fieldF hF⟩
  | true =>
    by_cases hzero : fieldZero op = 0#8
    · exact .inr (.inl ⟨_, eq_tkWord_of_fieldF hF hzero⟩)
    · exact .inr (.inr (decode_reserved_of_fields hF hzero))

/-! ### What each kind decodes to (R85) -/

/-- A TK word decodes to the tick operation of its bit `H` (R82). -/
theorem decode_tkWord (h : Bool) (d : Word) :
    decode (tkWord h) d = .instr (if h then .tickFall else .tickRise) := by
  cases h <;> rfl

/-- An offset of the upper half is bit 7 and its SENT index (R83). -/
theorem append_sentIndex {a : Offset} (hbit : a.getLsbD 7 = true) : 1#1 ++ sentIndex a = a := by
  have hlt := a.isLt
  rw [bit7_eq_decide, decide_eq_true_eq] at hbit
  apply BitVec.eq_of_toNat_eq
  rw [toNat_append_eq_add, toNat_sentIndex, BitVec.toNat_ofNat]
  omega

/-- All a read can decode to: a well-formed operation, whose word is that read. -/
theorem decodeRead_instr {a : Offset} {i : Instr} (h : decodeRead a = .instr i) :
    i.wellFormed = true ∧ encode i = { op := fgWord false a, data := none } := by
  unfold decodeRead at h
  split_ifs at h with h0 h1 h2 h4 h5 h6 hsent <;> cases h
  on_goal 7 =>
    rw [Bool.and_eq_true] at hsent
    obtain ⟨hbit, hindex⟩ := hsent
    exact ⟨hindex, by rw [encode, append_sentIndex hbit]⟩
  all_goals
    subst a
    exact ⟨rfl, rfl⟩

/-- All a write can decode to: the CMD write of its data. -/
theorem decodeWrite_instr {a : Offset} {d : Word} {i : Instr} (h : decodeWrite a d = .instr i) :
    a = 0x03#8 ∧ i = .wrCmd d := by
  unfold decodeWrite at h
  split_ifs at h with h3
  cases h
  exact ⟨h3, rfl⟩

/-- Which reads are BusFaults, by their offset (R86). -/
theorem decodeRead_eq_busFault_iff (a : Offset) :
    decodeRead a = .busFault ↔ a.toNat = 3 ∨ (7 ≤ a.toNat ∧ a.toNat ≤ 0x7F) ∨ 0xC3 ≤ a.toNat := by
  have hlt := a.isLt
  unfold decodeRead
  simp only [← BitVec.toNat_inj, bit7_eq_decide, toNat_sentIndex, Config.sentLen, BitVec.toNat_ofNat,
    Bool.and_eq_true, decide_eq_true_eq]
  split_ifs <;> simp only [false_iff, true_iff] <;> omega

/-- Every write is a BusFault but that to CMD (R86). -/
theorem decodeWrite_eq_busFault_iff (a : Offset) (d : Word) : decodeWrite a d = .busFault ↔ a.toNat ≠ 3 := by
  unfold decodeWrite
  simp only [← BitVec.toNat_inj, BitVec.toNat_ofNat]
  split_ifs <;> simp only [false_iff, true_iff] <;> omega

/-! ### The round trip (R84, R85) -/

/-- A well-formed operation's word decodes to the operation, with its own data where it has some. -/
theorem decode_encode {i : Instr} (hwf : i.wellFormed = true) (d : Word) :
    decode (encode i).op ((encode i).data.getD d) = .instr i := by
  cases hread : i.isRead with
  | true =>
    obtain ⟨a, hop, hdecode⟩ := encode_read hread
    rw [hop, decode_fgWord_read, hdecode hwf]
  | false =>
    cases i with
    | tickRise => exact decode_tkWord false d
    | tickFall => exact decode_tkWord true d
    | wrCmd e => exact decode_fgWord_write 0x03#8 e
    | rdStatus | rdTime | rdTake | rdSnap | rdCsum | rdLen | rdSent _ => cases hread

/-- The operation of a word is well-formed, and its encoding is that word, with the data beside it where it has some. -/
theorem encode_of_decode {op : OpWord} {d : Word} {i : Instr} (h : decode op d = .instr i) :
    i.wellFormed = true ∧ (encode i).op = op ∧ ∀ d', (encode i).data = some d' → d' = d := by
  rcases word_cases op with ⟨w, a, rfl⟩ | ⟨b, rfl⟩ | ⟨-, hreserved⟩
  · cases w with
    | false =>
      rw [decode_fgWord_read] at h
      obtain ⟨hwf, hencode⟩ := decodeRead_instr h
      exact ⟨hwf, by rw [hencode], by simp [hencode]⟩
    | true =>
      rw [decode_fgWord_write] at h
      obtain ⟨rfl, rfl⟩ := decodeWrite_instr h
      exact ⟨rfl, rfl, fun _ hd => (Option.some.inj hd).symm⟩
  · rw [decode_tkWord] at h
    cases b <;> cases h <;> exact ⟨rfl, rfl, by simp [encode]⟩
  · rw [hreserved] at h
    cases h

/-! ### Illegal and reserved words by value (R86) -/

/-- The illegal words: the reads of no register, and every write but that to CMD. -/
theorem decode_eq_busFault_iff (op : OpWord) (d : Word) :
    decode op d = .busFault ↔
      op.toNat = 0x003 ∨ (0x007 ≤ op.toNat ∧ op.toNat ≤ 0x07F) ∨ (0x0C3 ≤ op.toNat ∧ op.toNat ≤ 0x0FF) ∨
      (0x100 ≤ op.toNat ∧ op.toNat ≤ 0x1FF ∧ op.toNat ≠ 0x103) := by
  rcases word_cases op with ⟨w, a, rfl⟩ | ⟨b, rfl⟩ | ⟨hvalue, hreserved⟩
  · have hlt := a.isLt
    rw [toNat_fgWord]
    cases w with
    | false =>
      rw [decode_fgWord_read, decodeRead_eq_busFault_iff, Bool.toNat_false]
      omega
    | true =>
      rw [decode_fgWord_write, decodeWrite_eq_busFault_iff, Bool.toNat_true]
      omega
  · rw [decode_tkWord, toNat_tkWord]
    simp only [reduceCtorEq, false_iff]
    omega
  · rw [hreserved]
    simp only [reduceCtorEq, false_iff]
    omega

/-- The reserved words: those above the two TK words. -/
theorem decode_eq_reserved_iff (op : OpWord) (d : Word) : decode op d = .reserved ↔ 0x202 ≤ op.toNat := by
  rcases word_cases op with ⟨w, a, rfl⟩ | ⟨b, rfl⟩ | ⟨hvalue, hreserved⟩
  · have hlt := a.isLt
    have hW := w.toNat_le
    rw [toNat_fgWord]
    rcases decode_fgWord w a d with hd | ⟨i, hd, -⟩ <;> simp only [hd, reduceCtorEq, false_iff] <;> omega
  · have hH := b.toNat_le
    rw [decode_tkWord, toNat_tkWord]
    simp only [reduceCtorEq, false_iff]
    omega
  · exact iff_of_true (hreserved d) hvalue

/-- A word names an operation where it is neither illegal nor reserved. -/
theorem toInstr?_isSome_iff (r : Decoded) : r.toInstr?.isSome = true ↔ r ≠ .busFault ∧ r ≠ .reserved := by
  cases r <;> simp [Decoded.toInstr?]

/-- The words that name an operation: the offsets of the map of R84, and the two TK words. -/
theorem decode_isSome_iff (op : OpWord) (d : Word) :
    (decode op d).toInstr?.isSome = true ↔
      op.toNat < 3 ∨ (4 ≤ op.toNat ∧ op.toNat < 7) ∨ (0x80 ≤ op.toNat ∧ op.toNat < 0xC3) ∨ op.toNat = 0x103 ∨
      (0x200 ≤ op.toNat ∧ op.toNat < 0x202) := by
  rw [toInstr?_isSome_iff, ne_eq, ne_eq, decode_eq_busFault_iff, decode_eq_reserved_iff]
  omega

/-! ### Counting words (R86) -/

/-- A count below `N` is any function of the bound that starts at 0 and grows by one exactly where the property
holds. -/
theorem countP_range_eq {p : Nat → Bool} {f : Nat → Nat} {N : Nat} (hzero : f 0 = 0)
    (hsucc : ∀ n < N, f (n + 1) = f n + if p n then 1 else 0) : (List.range N).countP p = f N := by
  induction N with
  | zero => exact hzero.symm
  | succ N ih =>
    rw [List.range_succ, List.countP_append, List.countP_singleton, ih fun n hn => hsucc n (by omega),
      hsucc N (by omega)]

theorem toNat_ofNat_word {v : Nat} (h : v < 1024) : (BitVec.ofNat 10 v).toNat = v := by
  rw [BitVec.toNat_ofNat, Nat.mod_eq_of_lt h]

/-- Four intervals of offsets are illegal; `f` is how much of each lies below `n`. -/
theorem illegal_fgWord_count :
    (List.range 512).countP (fun w => decide (decode (BitVec.ofNat 10 w) 0 = .busFault)) = 438 :=
  countP_range_eq (f := fun n => (min n 4 - 3) + (min n 0x80 - 7) + (min n 0x103 - 0xC3) + (n - 0x104)) rfl
    fun n hn => by
      simp only [decode_eq_busFault_iff, toNat_ofNat_word (show n < 1024 by omega), decide_eq_true_eq]
      split_ifs <;> omega

/-- The offsets of the map of R84 in the same way: three intervals of reads, and the write to CMD. -/
theorem operation_fgWord_count :
    (List.range 512).countP (fun w => (decode (BitVec.ofNat 10 w) 0).toInstr?.isSome) = 74 :=
  countP_range_eq (f := fun n => min n 3 + (min n 7 - 4) + (min n 0xC3 - 0x80) + (min n 0x104 - 0x103)) rfl
    fun n hn => by
      simp only [decode_isSome_iff, toNat_ofNat_word (show n < 1024 by omega)]
      split_ifs <;> omega

theorem reserved_tkWord_count :
    (List.range 512).countP (fun w => decide (decode (BitVec.ofNat 10 (512 + w)) 0 = .reserved)) = 510 :=
  countP_range_eq (f := fun n => n - 2) rfl fun n hn => by
    simp only [decode_eq_reserved_iff, toNat_ofNat_word (show 512 + n < 1024 by omega), decide_eq_true_eq]
    split_ifs <;> omega

theorem operation_tkWord_count :
    (List.range 512).countP (fun w => (decode (BitVec.ofNat 10 (512 + w)) 0).toInstr?.isSome) = 2 :=
  countP_range_eq (f := fun n => min n 2) rfl fun n hn => by
    simp only [decode_isSome_iff, toNat_ofNat_word (show 512 + n < 1024 by omega)]
    split_ifs <;> omega

/-- The word at `0x080 + i` reads byte `i` of the sentence (R84). -/
theorem decode_sent_word {i : Nat} (hi : i < 67) (d : Word) :
    decode (BitVec.ofNat 10 (0x80 + i)) d = .instr (.rdSent (BitVec.ofNat 7 i)) := by
  have hindex : (BitVec.ofNat 7 i).toNat = i := by rw [BitVec.toNat_ofNat, Nat.mod_eq_of_lt (by omega)]
  have hword : BitVec.ofNat 10 (0x80 + i) = sentReadWord (BitVec.ofNat 7 i) := by
    apply BitVec.eq_of_toNat_eq
    rw [sentReadWord_eq, BitVec.toNat_add, BitVec.toNat_setWidth, hindex, toNat_ofNat_word (by omega)]
    simp only [BitVec.toNat_ofNat]
    omega
  rw [hword]
  exact decode_encode (i := .rdSent (BitVec.ofNat 7 i)) (by simpa [Instr.wellFormed, hindex] using hi) d

/-! ### The word of an expiry (R82) and the tick of the other state (R100, R101) -/

/-- The TK word is `1 00000000 H`. -/
theorem tkWord_eq (h : Bool) : tkWord h = 0x200#10 + (BitVec.ofBool h).setWidth 10 := by
  cases h <;> rfl

theorem exec_tickRise_of_high {s : State} (h : s.high10 = true) : exec .tickRise s = .refused .tickNotEnabled := by
  simp [exec, execTickRise, h]

theorem exec_tickFall_of_low {s : State} (h : s.high10 = false) : exec .tickFall s = .refused .tickNotEnabled := by
  simp [exec, execTickFall, h]

/-! ### What an operation does to the model's own fields (log entries 1 to 4) -/

/-- A tick is no bus read (R81, R82). -/
theorem isRead_of_isTick {i : Instr} (htick : i.isTick = true) : i.isRead = false := by
  cases i with
  | tickRise | tickFall => rfl
  | rdStatus | rdTime | rdTake | wrCmd _ | rdSnap | rdCsum | rdLen | rdSent _ => cases htick

/-- The parameters and the order of the steps, which no operation changes, are equal. -/
def SameOrder (s t : State) : Prop :=
  t.config = s.config ∧ t.schedule = s.schedule ∧ t.position = s.position

/-- A tick moves the time of the latest expiry by the interval programmed, and leaves the foreground's last value. -/
theorem exec_tick_frame {i : Instr} {s t : State} (htick : i.isTick = true) (h : exec i s = .next t) :
    SameOrder s t ∧ t.alarmBase = s.alarmBase + s.reload ∧ t.busResult = s.busResult := by
  cases i with
  | tickRise =>
    obtain ⟨-, rfl⟩ := execTickRise_next h
    exact ⟨⟨rfl, rfl, rfl⟩, rfl, rfl⟩
  | tickFall =>
    obtain ⟨-, rfl⟩ := execTickFall_next h
    exact ⟨⟨rfl, rfl, rfl⟩, rfl, rfl⟩
  | rdStatus | rdTime | rdTake | wrCmd _ | rdSnap | rdCsum | rdLen | rdSent _ => cases htick

/-- An access leaves the time; a well-formed read returns a word. -/
theorem exec_access_frame {i : Instr} {s t : State} (haccess : i.isTick = false) (h : exec i s = .next t) :
    SameOrder s t ∧ t.alarmBase = s.alarmBase ∧
      (i.isRead = true → i.wellFormed = true → t.busResult.isSome = true) := by
  cases i with
  | tickRise | tickFall => cases haccess
  | rdSent k =>
    rcases execRdSent_next h with ⟨b, -, rfl⟩ | ⟨hpast, rfl⟩
    · exact ⟨⟨rfl, rfl, rfl⟩, rfl, fun _ _ => rfl⟩
    · refine ⟨⟨rfl, rfl, rfl⟩, rfl, fun _ hwf => ?_⟩
      have hindex : k.toNat < 67 := of_decide_eq_true hwf
      omega
  | wrCmd d =>
    obtain rfl := execWrCmd_next h
    exact ⟨⟨rfl, rfl, rfl⟩, rfl, fun hread => by cases hread⟩
  | rdStatus | rdTime | rdTake | rdSnap | rdCsum | rdLen =>
    cases h
    exact ⟨⟨rfl, rfl, rfl⟩, rfl, fun _ _ => rfl⟩

/-! ### The statements settled -/

/-- Settles O2: a read's word decodes by its offset, and the two TK words and that of CMD are looked up. -/
theorem decodeOfEncodeIsTheOperation : Obligations.DecodeOfEncodeIsTheOperation :=
  fun _ hwf d => decode_encode hwf d

/-- Settles O3, by the kinds of words: an FG word has one register's operation at its offset, a TK word its tick. -/
theorem everyOperationHasOneWord : Obligations.EveryOperationHasOneWord :=
  fun _ _ _ h => encode_of_decode h

/-- Settles O4, by the kinds of words, each at its value. -/
theorem illegalAndReservedWords : Obligations.IllegalAndReservedWords :=
  fun op d => ⟨decode_eq_busFault_iff op d, decode_eq_reserved_iff op d⟩

/-- Settles O39: a tick and an access have a frame each, and a CMD write returns nothing. -/
theorem modelFieldsOfEachOperation : Obligations.ModelFieldsOfEachOperation := by
  intro i s t h
  have hwrite : ∀ d, i = .wrCmd d → t.busResult = none := by
    rintro d rfl
    rw [execWrCmd_next h]
    rfl
  cases hkind : i.isTick with
  | true =>
    obtain ⟨⟨hconfig, hschedule, hposition⟩, hbase, hresult⟩ := exec_tick_frame hkind h
    exact ⟨hconfig, hschedule, hposition, fun _ => ⟨hbase, hresult⟩, by simp, by simp [isRead_of_isTick hkind], hwrite⟩
  | false =>
    obtain ⟨⟨hconfig, hschedule, hposition⟩, hbase, hread⟩ := exec_access_frame hkind h
    exact ⟨hconfig, hschedule, hposition, by simp, fun _ => hbase, hread, hwrite⟩

/-- Settles O1: ten of the words are encodings of well-formed operations, and the others are illegal or reserved by
their value. -/
theorem tableWordsDecode : Obligations.TableWordsDecode :=
  ⟨decode_encode (i := .tickRise) rfl 0, decode_encode (i := .tickFall) rfl 0, decode_encode (i := .rdStatus) rfl 0,
    decode_encode (i := .rdTime) rfl 0, decode_encode (i := .rdTake) rfl 0, decode_encode (i := .wrCmd 7) rfl 0,
    decode_encode (i := .rdSnap) rfl 0, decode_encode (i := .rdCsum) rfl 0, decode_encode (i := .rdLen) rfl 0,
    decode_encode (i := .rdSent 0) rfl 0, decode_encode (i := .rdSent 66) rfl 0,
    (decode_eq_busFault_iff _ 0).mpr (by decide), (decode_eq_busFault_iff _ 1).mpr (by decide),
    (decode_eq_reserved_iff _ 0).mpr (by decide)⟩

/-- Settles O5, each count from the values of the words it counts. -/
theorem wordCounts : Obligations.WordCounts :=
  ⟨illegal_fgWord_count, operation_fgWord_count,
    List.all_eq_true.mpr fun _ hi => decide_eq_true (decode_sent_word (List.mem_range.mp hi) 0),
    reserved_tkWord_count, operation_tkWord_count⟩

/-- Settles O6: the word formed is the TK word of `high10`, which decodes to the tick of that state. -/
theorem expiryRunsTheOperationOfTheState : Obligations.ExpiryRunsTheOperationOfTheState := by
  intro s rest hconfig hs
  have hfetch : fetchEvent s .expiry = .word (tickWord s) 0 := rfl
  have hstep := step_of_ordered hconfig hs hfetch (decode_tickWord s)
  refine ⟨?_, fun low => ?_, fun high => ?_⟩
  · rw [fetch_of_cons _ hs, hfetch, tickWord, tkWord_eq]
  · simpa [low] using hstep
  · simpa [high] using hstep

/-- Settles O14: each tick tests `high10` before it writes anything. -/
theorem tickOfTheOtherStateIsRefused : Obligations.TickOfTheOtherStateIsRefused :=
  fun _ => ⟨exec_tickRise_of_high, exec_tickFall_of_low⟩

end Sys2Proof.Machine

/-! # The family of 40_pulse_engine.md: the two edges (R100 to R106), completion (R108) and the timeline of the waveforms
(R107 to R113), over every order of steps and in the run of expiries only -/

namespace Sys2Proof.Machine

/-! ### One second of the clock (R130, R131) -/

/-- ADVANCE is one more second of the day, through each of its carries. -/
theorem secondsOfDay_advance (c : TimeOfDay) : secondsOfDay (advance c) = (secondsOfDay c + 1) % 86400 := by
  have hhour := c.hour.isLt
  have hminute := c.minute.isLt
  have hsecond := c.second.isLt
  unfold advance
  split_ifs <;> simp [secondsOfDay] <;> omega

/-- No advance leaves the clock where it was: a day has more than one second. -/
theorem advance_ne (c : TimeOfDay) : advance c ≠ c := by
  intro h
  have hseconds := secondsOfDay_advance c
  rw [h] at hseconds
  omega

/-- A pulse is shorter than the period (R9). -/
theorem pulseWidth_lt_period {c : Configuration} (h : c.isAdmitted = true) : c.params.pulseWidthUs < 100000 := by
  obtain ⟨-, hwidth, -, -, -⟩ := admitted_bounds h
  exact Nat.lt_succ_of_le hwidth

/-! ### The rising edge in terms of `sub` (R100, R102) -/

section
variable (s : State)

/-- The SubCounter counts modulo 10 (R102). -/
theorem risingEdge_sub_val : (risingEdge s).sub.val = (s.sub.val + 1) % 10 := by
  rw [risingEdge_sub, subAfterRise_risingCount]

/-- The 1 Hz group: set by the edge that finds `sub = 9`, cleared by the edge that finds `sub = 0` (R103). -/
theorem risingEdge_high1_eq :
    (risingEdge s).high1 = if s.sub.val = 9 then true else if s.sub.val = 0 then false else s.high1 := by
  rw [risingEdge_high1, high1AfterRise_risingCount]

/-- The clock moves with the 1 Hz event only (R132). -/
theorem risingEdge_clock_eq : (risingEdge s).clock = if s.sub.val = 9 then advance s.clock else s.clock := by
  simp [isOneHzEvent_risingCount, clockAfterRise]

theorem risingEdge_pending_eq : (risingEdge s).pending = (decide (s.sub.val = 9) || s.pending) := by
  rw [risingEdge_pending, pendingAfterRise_risingCount]

/-- The 1 Hz event forgets the flag it found (R104). -/
theorem risingEdge_setPending (b : Bool) (h9 : s.sub.val = 9) : risingEdge { s with pending := b } = risingEdge s := by
  have hset : ∀ old, pendingAfterRise (risingCount s.sub) old = true := fun old => by
    simp [pendingAfterRise_risingCount, h9]
  simp only [risingEdge, hset]
  rfl

end

/-- In state HIGH a TICK_FALL is the falling edge (R101). -/
theorem exec_tickFall_of_high {s : State} (h : s.high10 = true) : exec .tickFall s = .next (fallingEdge s) := by
  simp [exec, execTickFall, h]

/-! ### Which step is a rising edge, and which a 1 Hz event (R16, R82) -/

section
variable {o : AccessOrder} {s t : State}

/-- A step that answers is a TICK_RISE exactly where it is a tick in state LOW. -/
theorem StepEffect.nextInstr_tickRise_iff (h : StepEffect o s t) :
    nextInstr o s = some .tickRise ↔ nextIsTick o s = true ∧ s.high10 = false := by
  cases h with
  | rise low op tick _ => simp [low, op, tick]
  | fall high op _ _ => simp [high, op]
  | take op access _ | cmd _ op access _ => simp [op, access]
  | other access noWrite _ _ _ _ =>
    have hne : nextInstr o s ≠ some .tickRise := fun hrise => by cases noWrite _ hrise
    simp [hne, access]

/-- A step that answers is a 1 Hz event exactly where it is a tick in state LOW that finds `sub = 9`. -/
theorem StepEffect.oneHzEvent_iff (h : StepEffect o s t) :
    nextIsOneHzEvent o s = true ↔ (nextIsTick o s = true ∧ s.high10 = false) ∧ s.sub.val = 9 := by
  simp [nextIsOneHzEvent, h.nextInstr_tickRise_iff]

/-- An ordered expiry performs the tick of the state it finds (R82). -/
theorem nextInstr_of_expiry {es : List Event} (o : AccessOrder) (h : s.schedule = .expiry :: es) :
    nextInstr o s = some (if s.high10 then .tickFall else .tickRise) := by
  have hfetch : fetch o s = .word (tickWord s) 0 := fetch_of_cons o h
  simp only [nextInstr, hfetch, decode_tickWord, Decoded.toInstr?]

/-! ### The timeline, step by step (R109 to R113) -/

/-- The timeline speaks of the tick domain, the time base and the parameters only. -/
theorem Timeline.of_sameTimebase {r : Nat} (hs : Timeline r s) (h : SameTimebase s t) : Timeline r t := by
  obtain ⟨⟨hhigh10, hhigh1, hsub, hclock, hreload⟩, hbase, hconfig⟩ := h
  unfold Timeline
  rw [hhigh10, hhigh1, hsub, hclock, hreload, hbase, hconfig]
  exact hs

/-- In state LOW the next expiry is at the time of edge `r + 1`, one period after edge `r` (R106, R109). -/
theorem Timeline.nextExpiry_of_low {r : Nat} (hs : Timeline r s) (hc : s.config.isAdmitted = true)
    (low : s.high10 = false) : s.nextExpiry = s.config.params.initialAlarmUs + r * Config.periodUs := by
  obtain ⟨-, -, -, -, hlow⟩ := hs
  have hwidth := pulseWidth_lt_period hc
  simp only [Config.periodUs] at hlow
  simp only [State.nextExpiry, Config.periodUs]
  rcases hlow low with ⟨hr, hbase, hreload⟩ | ⟨hr, hbase, hreload⟩ <;> omega

/-- In state HIGH the next expiry is at the end of the pulse of edge `r` (R109, R110). -/
theorem Timeline.nextExpiry_of_high {r : Nat} (hs : Timeline r s) (high : s.high10 = true) :
    1 ≤ r ∧ s.nextExpiry =
      s.config.params.initialAlarmUs + (r - 1) * Config.periodUs + s.config.params.pulseWidthUs := by
  obtain ⟨-, -, -, hhigh, -⟩ := hs
  obtain ⟨hr, hbase, hreload⟩ := hhigh high
  exact ⟨hr, by rw [State.nextExpiry, hbase, hreload]⟩

/-- A rising edge moves the block to the next edge of the timeline. -/
theorem Timeline.after_risingEdge {r : Nat} (hs : Timeline r s) (hc : s.config.isAdmitted = true)
    (low : s.high10 = false) : Timeline (r + 1) (risingEdge s) := by
  have htime := hs.nextExpiry_of_low hc low
  obtain ⟨hsub, hclock, hhigh1, -, -⟩ := hs
  refine ⟨?counter, ?clock, ?group, fun _ => ⟨by omega, htime, rfl⟩, fun h => by cases h⟩
  case counter =>
    rw [risingEdge_sub_val]
    omega
  case clock =>
    rw [risingEdge_clock_eq]
    simp only [secondsPerDay] at hclock ⊢
    split_ifs with h9
    · rw [secondsOfDay_advance]
      omega
    · omega
  case group =>
    rw [risingEdge_high1_eq]
    split_ifs with h9 h0
    · exact iff_of_true rfl (by omega)
    · exact iff_of_false not_false (by omega)
    · rw [hhigh1]
      omega

/-- A falling edge ends the pulse of the edge at which the block stands. -/
theorem Timeline.after_fallingEdge {r : Nat} (hs : Timeline r s) (high : s.high10 = true) :
    Timeline r (fallingEdge s) := by
  obtain ⟨hr, htime⟩ := hs.nextExpiry_of_high high
  obtain ⟨hsub, hclock, hhigh1, -, -⟩ := hs
  exact ⟨hsub, hclock, hhigh1, fun h => by simp at h, fun _ => .inr ⟨hr, htime, rfl⟩⟩

theorem Timeline.after_step {r : Nat} (hs : Timeline r s) (h : cycle o s = .next t) :
    Timeline (if nextInstr o s = some .tickRise then r + 1 else r) t := by
  have heffect := cycle_effect h
  have hrise := heffect.nextInstr_tickRise_iff
  obtain ⟨hc, -⟩ := cycle_next h
  rcases heffect.edge_or_sameTimebase with ⟨low, tick, rfl⟩ | ⟨high, -, rfl⟩ | ⟨access, hsame⟩
  · rw [if_pos (hrise.mpr ⟨tick, low⟩)]
    exact Timeline.after_risingEdge (s := s.consume o) hs hc low
  · rw [if_neg (by simp [hrise, high])]
    exact Timeline.after_fallingEdge (s := s.consume o) hs high
  · rw [if_neg (by simp [hrise, access])]
    exact hs.of_sameTimebase hsame

/-! ### The timeline, counted in ticks (R107) -/

/-- The block stands right after tick `k` since reset, but for accesses: ticks alternate, and `k` of them made
`(k + 1) / 2` rising edges. -/
def AtTick (c : Configuration) (k : Nat) (s : State) : Prop :=
  s.config = c ∧ s.high10 = decide (k % 2 = 1) ∧ Timeline ((k + 1) / 2) s

variable {c : Configuration} {k : Nat}

theorem atTick_zero_resetWith (c : Configuration) (es : List Event) :
    AtTick c 0 { State.resetWith c with schedule := es } :=
  ⟨rfl, rfl, timeline_zero_resetWith c⟩

theorem AtTick.after_step (hs : AtTick c k s) (h : cycle o s = .next t) :
    AtTick c (k + if nextIsTick o s then 1 else 0) t := by
  obtain ⟨hconfig, hphase, hline⟩ := hs
  have heffect := cycle_effect h
  have hrise := heffect.nextInstr_tickRise_iff
  have hnext := hline.after_step h
  obtain ⟨-, -, hkept⟩ := cycle_order h
  refine ⟨hkept.trans hconfig, ?_⟩
  rcases heffect.edge_or_sameTimebase with ⟨low, tick, rfl⟩ | ⟨high, tick, rfl⟩ | ⟨access, ⟨hhigh10, -⟩, -⟩
  · have heven : k % 2 ≠ 1 := by simpa [low] using hphase
    rw [if_pos (hrise.mpr ⟨tick, low⟩)] at hnext
    rw [if_pos tick, show (k + 1 + 1) / 2 = (k + 1) / 2 + 1 by omega]
    exact ⟨(decide_eq_true (by omega)).symm, hnext⟩
  · have hodd : k % 2 = 1 := by simpa [high] using hphase
    rw [if_neg (by simp [hrise, high])] at hnext
    rw [if_pos tick, show (k + 1 + 1) / 2 = (k + 1) / 2 by omega]
    exact ⟨(decide_eq_false (by omega)).symm, hnext⟩
  · rw [if_neg (by simp [hrise, access])] at hnext
    simp only [access, Bool.false_eq_true, if_false, Nat.add_zero]
    exact ⟨hhigh10.trans hphase, hnext⟩

/-- A step is a 1 Hz event exactly where it completes a further ten rising edges (R111). -/
theorem AtTick.oneHzEvent_step (hs : AtTick c k s) (h : cycle o s = .next t) :
    (k + (if nextIsTick o s then 1 else 0) + 1) / 2 / 10 =
      (k + 1) / 2 / 10 + if nextIsOneHzEvent o s then 1 else 0 := by
  obtain ⟨-, hphase, hsub, -⟩ := hs
  have heffect := cycle_effect h
  simp only [heffect.oneHzEvent_iff]
  rcases heffect.edge_or_sameTimebase with ⟨low, tick, -⟩ | ⟨high, tick, -⟩ | ⟨access, -⟩
  · have heven : k % 2 ≠ 1 := by simpa [low] using hphase
    simp only [tick, low, and_self, true_and, if_true]
    split_ifs <;> omega
  · have hodd : k % 2 = 1 := by simpa [high] using hphase
    simp only [tick, high, Bool.true_eq_false, and_false, false_and, if_true, if_false]
    omega
  · simp [access]

/-- Along any run the block keeps its place on the timeline, and the 1 Hz events are counted by the ticks. -/
theorem AtTick.after_run {n : Nat} (hs : AtTick c k s) (h : runUnder o n s = .next t) :
    AtTick c (k + ticksIn o n s) t ∧
      (k + ticksIn o n s + 1) / 2 / 10 = (k + 1) / 2 / 10 + oneHzEvents o n s := by
  induction n generalizing k s with
  | zero =>
    cases h
    exact ⟨hs, rfl⟩
  | succ n ih =>
    obtain ⟨u, hstep, hrest⟩ := runUnder_succ_next h
    obtain ⟨hplace, hcount⟩ := ih (hs.after_step hstep) hrest
    have hevent := hs.oneHzEvent_step hstep
    simp only [ticksIn, oneHzEvents, countSteps_succ_of_next hstep, ← Nat.add_assoc] at hplace hcount ⊢
    exact ⟨hplace, by rw [hcount, hevent]⟩

/-! ### What the rules say of tick `k` -/

/-- The 1 Hz group is active exactly from tick `20q - 1` to tick `20q + 1` (R112). -/
theorem AtTick.high1_iff (hs : AtTick c k s) :
    s.high1 = true ↔ ∃ q, 1 ≤ q ∧ (k = 20 * q - 1 ∨ k = 20 * q) := by
  obtain ⟨-, -, -, -, hhigh1, -, -⟩ := hs
  rw [hhigh1]
  constructor
  · intro h
    exact ⟨(k + 1) / 20, by omega, by omega⟩
  · rintro ⟨q, hq, hk⟩
    omega

/-- The SubCounter and the clock are those of `(k + 1) / 2` rising edges (R111, R113). -/
theorem AtTick.sub_and_clock (hs : AtTick c k s) :
    s.sub.val = (k + 1) / 2 % 10 ∧ secondsOfDay s.clock = (43200 + (k + 1) / 2 / 10) % 86400 := by
  obtain ⟨-, -, hsub, hclock, -⟩ := hs
  exact ⟨hsub, hclock⟩

/-- Tick `2j + 1` is a rising edge: its time, and the pulse width to the next expiry (R109, R110). -/
theorem AtTick.alarm_of_odd {j : Nat} (hs : AtTick c (2 * j + 1) s) :
    s.high10 = true ∧ s.alarmBase = c.params.initialAlarmUs + j * 100000 ∧ s.reload = c.params.pulseWidthUs := by
  obtain ⟨rfl, hphase, -, -, -, hhigh, -⟩ := hs
  have high : s.high10 = true := hphase.trans (decide_eq_true (by omega))
  obtain ⟨-, hbase, hreload⟩ := hhigh high
  rw [show (2 * j + 1 + 1) / 2 - 1 = j by omega] at hbase
  exact ⟨high, hbase, hreload⟩

/-- Tick `2j + 2` is a falling edge: its time, and the rest of the period to the next expiry (R109, R110). -/
theorem AtTick.alarm_of_even {j : Nat} (hs : AtTick c (2 * j + 2) s) :
    s.high10 = false ∧ s.alarmBase = c.params.initialAlarmUs + j * 100000 + c.params.pulseWidthUs ∧
      s.reload = 100000 - c.params.pulseWidthUs := by
  obtain ⟨rfl, hphase, -, -, -, -, hlow⟩ := hs
  have low : s.high10 = false := hphase.trans (decide_eq_false (by omega))
  rcases hlow low with ⟨hr, -, -⟩ | ⟨-, hbase, hreload⟩
  · omega
  · rw [show (2 * j + 2 + 1) / 2 - 1 = j by omega] at hbase
    exact ⟨low, hbase, hreload⟩

/-- The pins of the 10 Hz group are active exactly after an odd tick (R107, R110). -/
theorem AtTick.out10_level (hs : AtTick c k s) {l : BitVec 1} (hl : l ∈ s.out10) :
    l = if k % 2 = 1 then 1#1 else 0#1 := by
  obtain ⟨-, hphase, -⟩ := hs
  simpa [hphase] using eq_of_mem_out10 hl

/-! ### Completion (R108, R188, R220) -/

/-- A run from an interface schedule completes, and takes its entries one by one. -/
theorem runUnder_completes (o : AccessOrder) (n : Nat) (hc : s.config.isAdmitted = true)
    (hi : ∀ e ∈ s.schedule, e.isInterface = true) :
    ∃ t, runUnder o n s = .next t ∧ t.schedule = s.schedule.drop n ∧ t.config = s.config := by
  induction n generalizing s with
  | zero => exact ⟨s, rfl, rfl, rfl⟩
  | succ n ih =>
    obtain ⟨u, hstep, -⟩ := cycle_completes hc (nextEvent_isInterface o hi)
    obtain ⟨hschedule, -, hconfig⟩ := cycle_order hstep
    have hu : ∀ e ∈ u.schedule, e.isInterface = true := fun e he =>
      hi e (List.mem_of_mem_tail (hschedule ▸ he))
    obtain ⟨t, hrun, hdrop, hkept⟩ := ih (hconfig ▸ hc) hu
    refine ⟨t, (runUnder_succ_of_next hstep n).trans hrun, ?_, hkept.trans hconfig⟩
    rw [hdrop, hschedule, List.drop_tail]

/-! ### The run of expiries only (log entry 1) -/

/-- While the schedule holds expiries, every step is a tick. -/
theorem ticksIn_of_ticks {n m : Nat} (hc : s.config.isAdmitted = true) (hs : s.schedule = Listing.ticks m)
    (hn : n ≤ m) : ticksIn o n s = n := by
  induction n generalizing s m with
  | zero => rfl
  | succ n ih =>
    obtain ⟨m, rfl⟩ : ∃ m', m = m' + 1 := ⟨m - 1, by omega⟩
    have hcons : s.schedule = .expiry :: Listing.ticks m := hs
    have hevent := nextEvent_of_cons o hcons
    obtain ⟨u, hstep, htick⟩ := cycle_completes (o := o) hc (by rw [hevent]; rfl)
    have htick : nextIsTick o s = true := by rw [htick, hevent]; rfl
    obtain ⟨hschedule, -, hconfig⟩ := cycle_order hstep
    have hrest := ih (hconfig ▸ hc) (hschedule.trans (congrArg List.tail hcons)) (by omega)
    unfold ticksIn at hrest ⊢
    rw [countSteps_succ_of_next hstep, hrest, if_pos htick, Nat.add_comm]

theorem ticksIn_ticking {n m : Nat} (hc : c.isAdmitted = true) (hn : n ≤ m) : ticksIn o n (ticking c m) = n :=
  ticksIn_of_ticks (m := m) hc rfl hn

theorem atTick_zero_ticking (c : Configuration) (m : Nat) : AtTick c 0 (ticking c m) := atTick_zero_resetWith c _

/-- The run of expiries only, after `n` of its `m` steps: it stands at tick `n`, and the others are still ordered. -/
theorem ticking_run {n m : Nat} (hc : c.isAdmitted = true) (hn : n ≤ m) :
    ∃ t, runSteps n (ticking c m) = .next t ∧ AtTick c n t ∧ t.schedule = Listing.ticks (m - n) := by
  have hi : ∀ e ∈ (ticking c m).schedule, e.isInterface = true := fun e he => by
    rw [List.eq_of_mem_replicate he]
    rfl
  obtain ⟨t, hrun, hdrop, -⟩ := runUnder_completes Config.foregroundOrder n (s := ticking c m) hc hi
  obtain ⟨hplace, -⟩ := (atTick_zero_ticking c m).after_run hrun
  rw [ticksIn_ticking hc hn, Nat.zero_add] at hplace
  exact ⟨t, hrun, hplace, hdrop.trans (List.drop_replicate ..)⟩

/-- Tick `k + 1` of that run is the tick of the state that tick `k` left (R107). -/
theorem AtTick.nextInstr_of_ticks {m : Nat} (hs : AtTick c k s) (h : s.schedule = Listing.ticks (m + 1)) :
    nextInstr o s = some (if k % 2 = 1 then .tickFall else .tickRise) := by
  obtain ⟨-, hphase, -⟩ := hs
  simp [nextInstr_of_expiry o (es := Listing.ticks m) h, hphase]

end

/-! ### The statements settled -/

/-- Settles O42, by induction on the steps: each completes and leaves a state of the same kind. -/
theorem everyExpiryAndAccessCompletes : Obligations.EveryExpiryAndAccessCompletes :=
  fun _ hc hi n => runUnder_completes Config.foregroundOrder n hc hi

/-- Settles O48: of the effects a step can have, the rising edge goes to the next edge, the falling edge ends the pulse
of this one, and an access leaves all that the timeline speaks of. -/
theorem everyStepKeepsTheTimeline : Obligations.EveryStepKeepsTheTimeline :=
  fun _ _ _ hs h => hs.after_step h

/-- Settles O15, from the one state each of the two ticks can leave. -/
theorem subCounterCountsModuloTen : Obligations.SubCounterCountsModuloTen := by
  intro s t
  constructor
  · intro h
    obtain ⟨-, rfl⟩ := execTickRise_next h
    have hlt := s.sub.isLt
    rw [risingEdge_sub_val, risingEdge_clock_eq]
    refine ⟨rfl, by omega, by omega, ?_⟩
    split_ifs with h9
    · exact iff_of_true (advance_ne s.clock) h9
    · exact iff_of_false (fun h => h rfl) h9
  · intro h
    obtain ⟨-, rfl⟩ := execTickFall_next h
    exact ⟨fallingEdge_sub s, fallingEdge_clock s⟩

/-- Settles O16: only a rising edge writes `high1`, in two of its three cases. -/
theorem oneHertzGroupLaw : Obligations.OneHertzGroupLaw := by
  intro s t h
  have heffect := step_effect h
  have hevent := heffect.oneHzEvent_iff
  have hrise := heffect.nextInstr_tickRise_iff
  rcases heffect.edge_or_sameTimebase with ⟨low, tick, rfl⟩ | ⟨high, -, rfl⟩ | ⟨access, ⟨-, hhigh1, -⟩, -⟩
  · have hsub := risingEdge_sub_val (s.consume Config.foregroundOrder)
    have hhigh1 := risingEdge_high1_eq (s.consume Config.foregroundOrder)
    rw [State.consume_sub] at hsub
    refine ⟨fun h9 => ?_, fun _ h1 => ?_, fun hnone hnot => ?_⟩
    · exact hhigh1.trans (if_pos (hevent.mp h9).2)
    · have h0 : s.sub.val = 0 := by omega
      exact hhigh1.trans ((if_neg (by simp [h0])).trans (if_pos h0))
    · have h9 : s.sub.val ≠ 9 := fun h9 => by simp [hevent.mpr ⟨⟨tick, low⟩, h9⟩] at hnone
      have h0 : s.sub.val ≠ 0 := fun h0 => hnot ⟨hrise.mpr ⟨tick, low⟩, by rw [hsub, h0]⟩
      exact hhigh1.trans ((if_neg h9).trans (if_neg h0))
  · simp [hevent, hrise, high]
  · simp [hevent, hrise, access, hhigh1]

/-- Settles O19: the fall programs what the rise left of the period. -/
theorem alarmIntervalsMakeOnePeriod : Obligations.AlarmIntervalsMakeOnePeriod := by
  intro s hc low
  have hwidth := pulseWidth_lt_period hc
  refine ⟨risingEdge s, fallingEdge (risingEdge s), exec_tickRise_of_low low, exec_tickFall_of_high rfl, rfl, rfl, rfl,
    ?_, ?_⟩
  · simp only [State.nextExpiry, fallingEdge_alarmBase, fallingEdge_reload, risingEdge_alarmBase, risingEdge_reload,
      risingEdge_config, Config.periodUs]
    omega
  · simp only [fallingEdge_reload, risingEdge_reload, risingEdge_config, Config.periodUs]
    omega

/-- Settles O49: tick `k` of the run is at its place on the timeline, for `k` each of `2j`, `2j + 1` and `2j + 2`. -/
theorem ticksAlternateAtTheirTimes : Obligations.TicksAlternateAtTheirTimes := by
  intro c hc j
  obtain ⟨s, hrunS, hs, hrestS⟩ := ticking_run (n := 2 * j) (m := 2 * j + 2) hc (by omega)
  obtain ⟨t, hrunT, ht, hrestT⟩ := ticking_run (n := 2 * j + 1) (m := 2 * j + 2) hc (by omega)
  obtain ⟨u, hrunU, hu, -⟩ := ticking_run (n := 2 * j + 2) (m := 2 * j + 2) hc (by omega)
  rw [show 2 * j + 2 - 2 * j = 1 + 1 by omega] at hrestS
  rw [show 2 * j + 2 - (2 * j + 1) = 0 + 1 by omega] at hrestT
  have hrise := hs.nextInstr_of_ticks (o := Config.foregroundOrder) hrestS
  have hfall := ht.nextInstr_of_ticks (o := Config.foregroundOrder) hrestT
  rw [if_neg (by omega)] at hrise
  rw [if_pos (by omega)] at hfall
  obtain ⟨-, hbaseT, -⟩ := ht.alarm_of_odd
  obtain ⟨-, hbaseU, -⟩ := hu.alarm_of_even
  exact ⟨s, t, u, hrunS, hrise, hrunT, hfall, hrunU, hbaseT, by rw [hbaseU, hbaseT]⟩

/-- Settles O50: the pins are those of reset and of the ticks `2j + 1` and `2j + 2`, each in force to the time of the
tick after it. -/
theorem tenHertzWaveform : Obligations.TenHertzWaveform := by
  intro c hc
  refine ⟨fun l hl => eq_of_mem_out10 hl, rfl, Nat.zero_add _, fun j => ?_⟩
  have hwidth := pulseWidth_lt_period hc
  obtain ⟨t, hrunT, ht, -⟩ := ticking_run (n := 2 * j + 1) (m := 2 * j + 3) hc (by omega)
  obtain ⟨u, hrunU, hu, -⟩ := ticking_run (n := 2 * j + 2) (m := 2 * j + 3) hc (by omega)
  obtain ⟨v, hrunV, hv, -⟩ := ticking_run (n := 2 * j + 3) (m := 2 * j + 3) hc (by omega)
  obtain ⟨highT, hbaseT, hreloadT⟩ := ht.alarm_of_odd
  obtain ⟨lowU, hbaseU, hreloadU⟩ := hu.alarm_of_even
  obtain ⟨-, hbaseV, -⟩ := AtTick.alarm_of_odd (j := j + 1) hv
  have hnextT : t.nextExpiry = t.alarmBase + t.reload := rfl
  have hnextU : u.nextExpiry = u.alarmBase + u.reload := rfl
  refine ⟨t, u, v, hrunT, hrunU, hrunV, hbaseT, fun l hl => ?active, by omega, by omega, fun l hl => ?inactive,
    by omega, by omega⟩
  case active => simpa [highT] using eq_of_mem_out10 hl
  case inactive => simpa [lowU] using eq_of_mem_out10 hl

/-- Settles O51: tick `2r - 1` stands at edge `r`, and the state it finds at edge `r - 1`. -/
theorem risingEdgeNumbering : Obligations.RisingEdgeNumbering := by
  intro c hc r hr
  obtain ⟨j, rfl⟩ : ∃ j, r = j + 1 := ⟨r - 1, by omega⟩
  rw [show 2 * (j + 1) - 2 = 2 * j by omega, show 2 * (j + 1) - 1 = 2 * j + 1 by omega]
  obtain ⟨s, hrunS, hs, hrestS⟩ := ticking_run (n := 2 * j) (m := 2 * j + 1) hc (by omega)
  obtain ⟨t, hrunT, ht, -⟩ := ticking_run (n := 2 * j + 1) (m := 2 * j + 1) hc (by omega)
  rw [show 2 * j + 1 - 2 * j = 0 + 1 by omega] at hrestS
  have hrise := hs.nextInstr_of_ticks (o := Config.foregroundOrder) hrestS
  rw [if_neg (by omega)] at hrise
  obtain ⟨hsubS, -⟩ := hs.sub_and_clock
  obtain ⟨hsubT, -⟩ := ht.sub_and_clock
  obtain ⟨-, hbase, -⟩ := ht.alarm_of_odd
  refine ⟨s, t, hrunS, hrunT, hrise, hbase, by omega, ?event, fun hten => ⟨by omega, ?first⟩⟩
  case first => rw [hbase, show j = 9 by omega]
  case event =>
    have hevent : nextIsOneHzEvent Config.foregroundOrder s = true ↔ s.sub.val = 9 := by
      simp [nextIsOneHzEvent, hrise]
    rw [hevent, hsubS]
    exact ⟨fun h => ⟨(j + 1) / 10, by omega, by omega⟩, by rintro ⟨q, hq, hj⟩; omega⟩

/-- Settles O52: the group after tick `k` is that of the timeline, and the ticks `20q - 1`, `20q + 1` and `20q + 19` are
rising edges one period and one second apart. -/
theorem oneHertzWaveform : Obligations.OneHertzWaveform := by
  intro c hc
  constructor
  · intro k
    obtain ⟨t, hrun, ht, -⟩ := ticking_run (n := k) (m := k) hc le_rfl
    exact ⟨t, hrun, ht.high1_iff, fun l hl => eq_of_mem_out1 hl⟩
  · intro q hq
    obtain ⟨t, hrunT, ht, -⟩ := ticking_run (n := 20 * q - 1) (m := 20 * q + 19) hc (by omega)
    obtain ⟨u, hrunU, hu, -⟩ := ticking_run (n := 20 * q + 1) (m := 20 * q + 19) hc (by omega)
    obtain ⟨v, hrunV, hv, -⟩ := ticking_run (n := 20 * q + 19) (m := 20 * q + 19) hc (by omega)
    rw [show 20 * q - 1 = 2 * (10 * q - 1) + 1 by omega] at ht
    rw [show 20 * q + 1 = 2 * (10 * q) + 1 by omega] at hu
    rw [show 20 * q + 19 = 2 * (10 * q + 9) + 1 by omega] at hv
    obtain ⟨highT, hbaseT, -⟩ := ht.alarm_of_odd
    obtain ⟨-, hbaseU, -⟩ := hu.alarm_of_odd
    obtain ⟨-, hbaseV, -⟩ := hv.alarm_of_odd
    exact ⟨t, u, v, hrunT, hrunU, hrunV, highT, hbaseT, hbaseU, by omega, by omega⟩

/-- Settles O53: `2r - 1` ticks are `r` rising edges, and each ten of them one 1 Hz event. -/
theorem clockAgainstEdges : Obligations.ClockAgainstEdges := by
  intro c hc r hr
  obtain ⟨t, hrun, ht, -⟩ := ticking_run (n := 2 * r - 1) (m := 2 * r - 1) hc le_rfl
  obtain ⟨-, hclock⟩ := ht.sub_and_clock
  obtain ⟨-, hcount⟩ := (atTick_zero_ticking c (2 * r - 1)).after_run hrun
  have hedges : (2 * r - 1 + 1) / 2 = r := by omega
  rw [hedges] at hclock
  rw [ticksIn_ticking hc le_rfl, Nat.zero_add, hedges] at hcount
  exact ⟨t, hrun, hclock, by omega⟩

/-- Settles O54: along any run from reset the block stands at the tick that the run has come to. -/
theorem everyOrderHasTheWaveforms : Obligations.EveryOrderHasTheWaveforms := by
  intro c o es n k t hrun hk
  obtain ⟨hplace, -⟩ := (atTick_zero_resetWith c es).after_run hrun
  rw [hk, Nat.zero_add] at hplace
  obtain ⟨hsub, hclock⟩ := hplace.sub_and_clock
  refine ⟨fun l hl => hplace.out10_level hl, hplace.high1_iff, hsub, hclock, fun hodd => ?_, fun heven hpos => ?_⟩
  · obtain ⟨j, rfl⟩ : ∃ j, k = 2 * j + 1 := ⟨k / 2, by omega⟩
    obtain ⟨-, halarm⟩ := hplace.alarm_of_odd
    rwa [show (2 * j + 1 - 1) / 2 = j by omega]
  · obtain ⟨j, rfl⟩ : ∃ j, k = 2 * j + 2 := ⟨k / 2 - 1, by omega⟩
    obtain ⟨-, halarm⟩ := hplace.alarm_of_even
    rwa [show (2 * j + 2 - 2) / 2 = j by omega]

/-- Settles O12: the rising edge's writes, in the three cases of the count it reaches. -/
theorem tickRiseInItsThreeCases : Obligations.TickRiseInItsThreeCases := by
  refine ⟨decode_tkWord false, fun s low => ⟨risingEdge s, exec_tickRise_of_low low, rfl, rfl, rfl, rfl, ?_⟩⟩
  rw [risingEdge_sub_val, risingEdge_high1_eq, risingEdge_clock_eq, risingEdge_pending_eq]
  refine ⟨fun hevent => ?_, fun hfirst => ?_, fun hevent hfirst => ?_⟩
  · simp [show s.sub.val = 9 by omega]
  · simp [show s.sub.val = 0 by omega]
  · have hlt := s.sub.isLt
    have h9 : s.sub.val ≠ 9 := by omega
    have h0 : s.sub.val ≠ 0 := by omega
    simp only [h9, h0, if_false, decide_false, Bool.false_or, and_self, and_true]
    omega

/-- Settles O13: the falling edge writes `high10` and the interval only, and a pulse is shorter than the period (R9). -/
theorem tickFallEndsThePulseOnly : Obligations.TickFallEndsThePulseOnly := by
  refine ⟨decode_tkWord true, fun s high => ⟨fallingEdge s, exec_tickFall_of_high high, rfl, rfl, rfl, rfl, rfl, rfl,
    rfl, rfl, fun hc => ?_⟩⟩
  exact Nat.sub_pos_of_lt (pulseWidth_lt_period hc)

/-- Settles O17: the 1 Hz event sets the flag whatever it was, and leaves no other trace of it. -/
theorem overrunKeepsTheFlagAndAdvancesTheClock : Obligations.OverrunKeepsTheFlagAndAdvancesTheClock := by
  intro s low h9 _
  refine ⟨risingEdge s, exec_tickRise_of_low low, ?_, ?_, rfl, rfl, ?_⟩
  · rw [risingEdge_pending_eq, h9]
    rfl
  · rw [risingEdge_clock_eq, if_pos h9, secondsOfDay_advance]
  · rw [exec_tickRise_of_low (s := { s with pending := false }) low, risingEdge_setPending s false h9]

end Sys2Proof.Machine

/-! # The family of 41_virtual_clock.md: the seconds-of-day form (R131), the period of the clock (R134), and when the clock
moves (R132, R133) -/

namespace Sys2Proof.Machine

/-! ### The seconds-of-day form is a bijection (R131) -/

theorem secondsOfDay_lt (c : TimeOfDay) : secondsOfDay c < 86400 := by
  have hhour := c.hour.isLt
  have hminute := c.minute.isLt
  have hsecond := c.second.isLt
  unfold secondsOfDay
  omega

theorem timeOfSeconds_secondsOfDay (c : TimeOfDay) : timeOfSeconds (secondsOfDay c) = c := by
  obtain ⟨hour, minute, second⟩ := c
  simp only [timeOfSeconds, secondsOfDay, TimeOfDay.mk.injEq, Fin.ext_iff, Fin.val_ofNat]
  refine ⟨?_, ?_, ?_⟩ <;> omega

theorem secondsOfDay_timeOfSeconds {n : Nat} (h : n < 86400) : secondsOfDay (timeOfSeconds n) = n := by
  simp only [timeOfSeconds, secondsOfDay, Fin.val_ofNat]
  omega

theorem secondsOfDay_injective : Function.Injective secondsOfDay :=
  Function.LeftInverse.injective timeOfSeconds_secondsOfDay

/-! ### Many seconds (R134) -/

theorem secondsOfDay_advanceTimes (n : Nat) (c : TimeOfDay) :
    secondsOfDay (advanceTimes n c) = (secondsOfDay c + n) % 86400 := by
  induction n generalizing c with
  | zero => exact (Nat.mod_eq_of_lt (secondsOfDay_lt c)).symm
  | succ n ih =>
    rw [advanceTimes, ih, secondsOfDay_advance]
    omega

/-- The clock shows the same time exactly after numbers of events that differ by whole days. -/
theorem advanceTimes_eq_iff (m n : Nat) (c : TimeOfDay) :
    advanceTimes m c = advanceTimes n c ↔ m % 86400 = n % 86400 := by
  rw [← secondsOfDay_injective.eq_iff, secondsOfDay_advanceTimes, secondsOfDay_advanceTimes]
  omega

/-! ### When the clock moves (R132, R133) -/

section
variable {o : AccessOrder} {s t : State}

/-- The 1 Hz event advances the clock and sets `pending` in the one step (R132). -/
theorem StepEffect.clock_pending_of_event (h : StepEffect o s t) (event : nextIsOneHzEvent o s = true) :
    t.clock = advance s.clock ∧ t.pending = true := by
  obtain ⟨⟨tick, low⟩, h9⟩ := h.oneHzEvent_iff.mp event
  rcases h.edge_or_sameTimebase with ⟨-, -, rfl⟩ | ⟨high, -, -⟩ | ⟨access, -⟩
  · rw [risingEdge_clock_eq, risingEdge_pending_eq]
    simp [h9]
  · simp [low] at high
  · simp [tick] at access

/-- Any other step leaves the clock and does not raise `pending` (R132, R133). -/
theorem StepEffect.clock_pending_of_no_event (h : StepEffect o s t) (noEvent : nextIsOneHzEvent o s = false) :
    t.clock = s.clock ∧ (t.pending = true → s.pending = true) := by
  rcases h.edge_or_sameTimebase with ⟨low, tick, rfl⟩ | ⟨-, -, rfl⟩ | ⟨access, ⟨-, -, -, hclock, -⟩, -⟩
  · have h9 : s.sub.val ≠ 9 := fun h9 => by simp [h.oneHzEvent_iff.mpr ⟨⟨tick, low⟩, h9⟩] at noEvent
    rw [risingEdge_clock_eq, risingEdge_pending_eq]
    simp [h9]
  · simp
  · exact ⟨hclock, h.access_pending access⟩

end

/-! ### The statements settled -/

/-- Settles O20: ADVANCE through each of its carries, and the two inverses. -/
theorem advanceIsOneSecondOfTheDay : Obligations.AdvanceIsOneSecondOfTheDay :=
  ⟨fun c => ⟨secondsOfDay_lt c, secondsOfDay_advance c, timeOfSeconds_secondsOfDay c⟩,
    fun _ => secondsOfDay_timeOfSeconds⟩

/-- Settles O21: counts of events that differ by a positive number below a day differ modulo a day. -/
theorem clockPeriodIsOneDay : Obligations.ClockPeriodIsOneDay := by
  intro c
  refine ⟨(advanceTimes_eq_iff 86400 0 c).mpr rfl, fun m n hlt hday hsame => ?_⟩
  have hmod := (advanceTimes_eq_iff m n c).mp hsame
  omega

/-- Settles O22: the event, every other step, and of these the accesses, which write no field of the tick domain (R38). -/
theorem clockMovesOnlyWithTheOneHertzEvent : Obligations.ClockMovesOnlyWithTheOneHertzEvent := by
  intro s t h
  have heffect := step_effect h
  refine ⟨heffect.clock_pending_of_event, fun noEvent => (heffect.clock_pending_of_no_event noEvent).1,
    fun access => ?ofAccess, fun hclear hset => ?ofRaised⟩
  case ofAccess =>
    obtain ⟨⟨-, -, -, hclock, -⟩, -⟩ := (eachFieldHasItsWriter s t h).1 access
    exact hclock
  case ofRaised =>
    cases event : nextIsOneHzEvent Config.foregroundOrder s with
    | true => exact (heffect.clock_pending_of_event event).1
    | false =>
      have hold := (heffect.clock_pending_of_no_event event).2 hset
      simp [hclear] at hold

end Sys2Proof.Machine

/-! # The family of 42_sentence_formatter.md: digits (R150 to R153), the checksum (R154, R157, R159, R163), the sentence
(R155, R156, R160), and the registers that serve it (R161) -/

namespace Sys2Proof.Machine

/-! ### Decimal digits (R150, R151) -/

theorem digit_eq_ofNat (n : Nat) : digit n = BitVec.ofNat 8 (0x30 + n) := (BitVec.ofNat_add 0x30 n).symm

theorem toNat_digit {n : Nat} (h : n < 10) : (digit n).toNat = 0x30 + n := by
  rw [digit_eq_ofNat, BitVec.toNat_ofNat]
  omega

/-- The four low bits of 0x30 are zero, so that adding a digit to it carries nothing. -/
theorem digit_eq_xor {n : Nat} (h : n < 10) : digit n = 0x30#8 ^^^ BitVec.ofNat 8 n := by
  have hall : ∀ d : Fin 10, digit d.val = 0x30#8 ^^^ BitVec.ofNat 8 d.val := by decide
  exact hall ⟨n, h⟩

theorem digit_injective {m n : Nat} (hm : m < 10) (hn : n < 10) (h : digit m = digit n) : m = n := by
  have hbyte := congrArg BitVec.toNat h
  rw [toNat_digit hm, toNat_digit hn] at hbyte
  omega

theorem fmt2_injective {v w : Nat} (hv : v < 100) (hw : w < 100) (h : fmt2 v = fmt2 w) : v = w := by
  obtain ⟨htens, hunits⟩ : digit (v / 10) = digit (w / 10) ∧ digit (v % 10) = digit (w % 10) := by
    simpa [fmt2] using h
  have sameTens := digit_injective (by omega) (by omega) htens
  have sameUnits := digit_injective (by omega) (by omega) hunits
  omega

/-! ### Hexadecimal digits (R152, R153) -/

theorem toNat_hexDigit {n : Nat} (h : n < 16) :
    (hexDigit n).toNat = if n < 10 then 0x30 + n else 0x37 + n := by
  unfold hexDigit
  split <;> rw [← BitVec.ofNat_add, BitVec.toNat_ofNat] <;> omega

/-- A hexadecimal digit is one of '0' to '9' or 'A' to 'F'. -/
theorem hexDigit_range {n : Nat} (h : n < 16) :
    (0x30 ≤ (hexDigit n).toNat ∧ (hexDigit n).toNat ≤ 0x39) ∨
      (0x41 ≤ (hexDigit n).toNat ∧ (hexDigit n).toNat ≤ 0x46) := by
  rw [toNat_hexDigit h]
  split <;> omega

/-- A reader gets the digit back from its character. -/
theorem hexDigit_readBack {n : Nat} (h : n < 16) :
    (if (hexDigit n).toNat < 0x41 then (hexDigit n).toNat - 0x30 else (hexDigit n).toNat - 0x37) = n := by
  rw [toNat_hexDigit h]
  split <;> split <;> omega

/-- The two digits are those of the byte's number, the high one first. -/
theorem hex2_eq (c : Byte) : hex2 c = [hexDigit (c.toNat / 16), hexDigit (c.toNat % 16)] := by
  have hc := c.isLt
  have hhigh : (c.extractLsb' 4 4).toNat = c.toNat / 16 := by
    rw [BitVec.extractLsb'_toNat, Nat.shiftRight_eq_div_pow]
    omega
  have hlow : (c.extractLsb' 0 4).toNat = c.toNat % 16 := by
    rw [BitVec.extractLsb'_toNat, Nat.shiftRight_zero]
  rw [hex2, hhigh, hlow]

/-! ### The exclusive-OR of bytes (R154) -/

/-- The running exclusive-OR may begin at either end. -/
theorem foldl_xor_eq (c : Byte) (q : List Byte) : q.foldl (fun c b => c ^^^ b) c = c ^^^ xorBytes q := by
  induction q generalizing c with
  | nil => simp [xorBytes]
  | cons b q ih => rw [List.foldl_cons, ih, xorBytes, BitVec.xor_assoc]

theorem toNat_xor_lt {a b : Byte} (ha : a.toNat < 2 ^ 4) (hb : b.toNat < 2 ^ 4) : (a ^^^ b).toNat < 2 ^ 4 := by
  rw [BitVec.toNat_xor]
  exact Nat.xor_lt_two_pow ha hb

/-- The 0x30 parts of the two digits of a field cancel (R159). -/
theorem xorBytes_fmt2 {v : Nat} (hv : v < 100) :
    xorBytes (fmt2 v) = BitVec.ofNat 8 (v / 10) ^^^ BitVec.ofNat 8 (v % 10) := by
  have htens : v / 10 < 10 := by omega
  have hunits : v % 10 < 10 := by omega
  calc xorBytes (fmt2 v)
      = digit (v / 10) ^^^ digit (v % 10) := by simp [xorBytes, fmt2]
    _ = BitVec.ofNat 8 (v / 10) ^^^ (0x30#8 ^^^ 0x30#8) ^^^ BitVec.ofNat 8 (v % 10) := by
        rw [digit_eq_xor htens, digit_eq_xor hunits]
        ac_rfl
    _ = BitVec.ofNat 8 (v / 10) ^^^ BitVec.ofNat 8 (v % 10) := by simp

/-- A field contributes to the low four bits of the checksum only. -/
theorem toNat_xorBytes_fmt2_lt {v : Nat} (hv : v < 100) : (xorBytes (fmt2 v)).toNat < 2 ^ 4 := by
  rw [xorBytes_fmt2 hv]
  refine toNat_xor_lt ?_ ?_ <;> rw [BitVec.toNat_ofNat] <;> omega

/-! ### The time field of the sentence: bytes 7 to 12, the only ones not fixed before the checksum (R156, R158) -/

/-- `hhmmss`: the six digits of the time. -/
def timeField (t : TimeOfDay) : List Byte := fmt2 t.hour.val ++ fmt2 t.minute.val ++ fmt2 t.second.val

theorem payload_eq (t : TimeOfDay) : payload t = talkerField ++ timeField t ++ fixedTail := rfl

/-- The sentence in terms of the checksum its bytes 1 to 61 have (R157, R160). -/
theorem render_eq (t : TimeOfDay) :
    render t = [startDelimiter] ++ (talkerField ++ timeField t ++ fixedTail) ++ [checksumDelimiter] ++
      hex2 (checksum (render t)) ++ lineTerminator := rfl

theorem timeField_of_render (t : TimeOfDay) : ((render t).drop 7).take 6 = timeField t := rfl

theorem timeField_eq_digits (t : TimeOfDay) : timeField t =
    [digit (t.hour.val / 10), digit (t.hour.val % 10), digit (t.minute.val / 10), digit (t.minute.val % 10),
      digit (t.second.val / 10), digit (t.second.val % 10)] := rfl

theorem timeField_injective : Function.Injective timeField := by
  rintro ⟨h, m, s⟩ ⟨h', m', s'⟩ heq
  obtain ⟨hhm, hsecond⟩ := List.append_inj heq rfl
  obtain ⟨hhour, hminute⟩ := List.append_inj hhm rfl
  have hhour' : h.val = h'.val := fmt2_injective (by omega) (by omega) hhour
  have hminute' : m.val = m'.val := fmt2_injective (by omega) (by omega) hminute
  have hsecond' : s.val = s'.val := fmt2_injective (by omega) (by omega) hsecond
  rw [Fin.ext hhour', Fin.ext hminute', Fin.ext hsecond']

/-! ### The checksum in closed form (R159) -/

/-- The 55 fixed bytes contribute 0x58. -/
theorem checksum_render_eq (t : TimeOfDay) : checksum (render t) = 0x58#8 ^^^ xorBytes (timeField t) := by
  have hfixed : xorBytes talkerField ^^^ xorBytes fixedTail = 0x58#8 := by decide
  rw [checksum_render, payload_eq, xorBytes_append, xorBytes_append, ← hfixed]
  ac_rfl

theorem toNat_xorBytes_timeField_lt (t : TimeOfDay) : (xorBytes (timeField t)).toNat < 2 ^ 4 := by
  rw [timeField, xorBytes_append, xorBytes_append]
  exact toNat_xor_lt (toNat_xor_lt (toNat_xorBytes_fmt2_lt (by omega)) (toNat_xorBytes_fmt2_lt (by omega)))
    (toNat_xorBytes_fmt2_lt (by omega))

/-- The high digit of the checksum is that of 0x58, since the time reaches the low digit only. -/
theorem checksum_render_high (t : TimeOfDay) : (checksum (render t)).toNat / 16 = 5 := by
  calc (checksum (render t)).toNat / 2 ^ 4
      = 0x58 / 2 ^ 4 ^^^ (xorBytes (timeField t)).toNat / 2 ^ 4 := by
        rw [checksum_render_eq, BitVec.toNat_xor, Nat.xor_div_two_pow]
        rfl
    _ = 0x58 / 2 ^ 4 ^^^ 0 := by rw [Nat.div_eq_of_lt (toNat_xorBytes_timeField_lt t)]

/-- Byte 63 is the high digit of the checksum. -/
theorem render_getElem?_63 (t : TimeOfDay) : (render t)[63]? = some (hexDigit ((checksum (render t)).toNat / 16)) := by
  have hbyte : (render t)[63]? = (hex2 (checksum (render t)))[0]? := rfl
  rw [hbyte, hex2_eq]
  rfl

/-- A time whose checksum has the low digit `k`: its minute settles bit 3, its second the bits 2 to 0. -/
def timeOfChecksumDigit (k : Fin 16) : TimeOfDay :=
  { hour := 0, minute := if k.val < 8 then 8 else 0, second := Fin.ofNat 60 (k.val % 8) }

theorem checksum_render_timeOfChecksumDigit (k : Fin 16) :
    (checksum (render (timeOfChecksumDigit k))).toNat = 0x50 + k.val := by
  rw [checksum_render_eq]
  revert k
  decide

/-! ### The registers that serve the sentence (R161, R185, R187) -/

section
variable (s : State)

theorem returned_rdCsum : returned .rdCsum s = some (byteWord (checksum (render s.snap))) := rfl

theorem exec_rdSent_of_byte {i : BitVec 7} {b : Byte} (h : (render s.snap)[i.toNat]? = some b) :
    exec (.rdSent i) s = .next (s.returnWord (byteWord b)) := by
  show execRdSent i s = _
  simp only [execRdSent, h]

theorem returned_rdSent_of_byte {i : BitVec 7} {b : Byte} (h : (render s.snap)[i.toNat]? = some b) :
    returned (.rdSent i) s = some (byteWord b) := by
  simp only [returned, exec_rdSent_of_byte s h, State.returnWord_busResult]

end

/-- An index up to 66 has a byte (R160). -/
theorem exists_render_byte {i : BitVec 7} (hi : i.toNat ≤ 66) (t : TimeOfDay) :
    ∃ b, (render t)[i.toNat]? = some b :=
  ⟨_, List.getElem?_eq_getElem (by rw [render_length]; omega)⟩

/-! ### The statements settled -/

/-- Settles O23: the fields of RENDER in their order, with the digits of the time and of the checksum by value. -/
theorem sentenceBytes : Obligations.SentenceBytes := by
  intro t
  refine ⟨checksum (render t), rfl, ?_⟩
  have hfields := render_eq t
  simp only [timeField_eq_digits, digit_eq_ofNat, hex2_eq] at hfields
  exact hfields

/-- Settles O24: the closed form by fields, its high digit, and for each low digit the time that has it. -/
theorem checksumClosedForm : Obligations.ChecksumClosedForm := by
  refine ⟨fun t => ⟨?digits, ?values, checksum_render_high t, ?byte63⟩, fun v hlow hhigh => ?everyValue⟩
  case digits =>
    rw [checksum_render_eq, timeField_eq_digits]
    simp only [xorBytes, BitVec.xor_zero, BitVec.xor_assoc]
  case values =>
    rw [checksum_render_eq, timeField, xorBytes_append, xorBytes_append, xorBytes_fmt2 (by omega),
      xorBytes_fmt2 (by omega), xorBytes_fmt2 (by omega)]
    simp only [BitVec.xor_assoc]
  case byte63 =>
    rw [render_getElem?_63, checksum_render_high]
    rfl
  case everyValue =>
    refine ⟨timeOfChecksumDigit ⟨v - 0x50, by omega⟩, ?_⟩
    rw [checksum_render_timeOfChecksumDigit]
    show 0x50 + (v - 0x50) = v
    omega

/-- Settles O25: the recomputed exclusive-OR is the checksum of the sentence, which its bytes 63 and 64 show. -/
theorem checksumRoundTrip : Obligations.ChecksumRoundTrip := by
  intro t
  refine ⟨render_length t, ?_⟩
  have hrecomputed : (((render t).drop 1).take 61).foldl (fun c b => c ^^^ b) 0#8 = checksum (render t) := by
    rw [foldl_xor_eq, BitVec.zero_xor]
    rfl
  rw [hrecomputed]
  rfl

/-- Settles O27: the sentence holds the time field, whose three pairs of digits give the three fields back. -/
theorem sentenceDeterminesTheTime : Obligations.SentenceDeterminesTheTime := by
  intro t u h
  apply timeField_injective
  rw [← timeField_of_render t, ← timeField_of_render u, h]

/-- Settles O38: what each of these reads returns, as a function of the sentence for SNAP. -/
theorem sentenceRegistersFollowSnapOnly : Obligations.SentenceRegistersFollowSnapOnly := by
  intro s s' hsnap
  refine ⟨fun i hi => ?sent, ?csum, rfl⟩
  case sent =>
    obtain ⟨b, hb⟩ := exists_render_byte hi s.snap
    have hread := returned_rdSent_of_byte s hb
    have hread' := returned_rdSent_of_byte s' (hsnap ▸ hb)
    exact ⟨hread.trans hread'.symm, by rw [hread]; rfl⟩
  case csum =>
    rw [returned_rdCsum, returned_rdCsum, hsnap]

/-- Settles O26: the two digits of the byte's number, each below 16. -/
theorem hexDigitsReadBack : Obligations.HexDigitsReadBack := by
  intro c
  have hhigh : c.toNat / 16 < 16 := by have := c.isLt; omega
  have hlow : c.toNat % 16 < 16 := Nat.mod_lt _ (by decide)
  refine ⟨_, _, hex2_eq c, rfl, rfl, ?range, ?readBack⟩
  case range => simpa using ⟨hexDigit_range hhigh, hexDigit_range hlow⟩
  case readBack =>
    rw [hexDigit_readBack hhigh, hexDigit_readBack hlow]
    omega

end Sys2Proof.Machine

/-! # The family of 43_foreground_interface.md: what each register read returns and leaves (R180 to R187), the two
operations that write the handoff (R182, R183), and the tick domain under any accesses (R188) -/

namespace Sys2Proof.Machine

/-! ### The tick domain beside the foreground (R38, R188) -/

section
variable {o : AccessOrder} {s s' t t' : State}

theorem SameTimebase.symm (h : SameTimebase s t) : SameTimebase t s := by
  obtain ⟨⟨hhigh10, hhigh1, hsub, hclock, hreload⟩, hbase, hconfig⟩ := h
  exact ⟨⟨hhigh10.symm, hhigh1.symm, hsub.symm, hclock.symm, hreload.symm⟩, hbase.symm, hconfig.symm⟩

theorem SameTimebase.trans (h : SameTimebase s t) (h' : SameTimebase t t') : SameTimebase s t' := by
  obtain ⟨⟨hhigh10, hhigh1, hsub, hclock, hreload⟩, hbase, hconfig⟩ := h
  obtain ⟨⟨hhigh10', hhigh1', hsub', hclock', hreload'⟩, hbase', hconfig'⟩ := h'
  exact ⟨⟨hhigh10'.trans hhigh10, hhigh1'.trans hhigh1, hsub'.trans hsub, hclock'.trans hclock,
    hreload'.trans hreload⟩, hbase'.trans hbase, hconfig'.trans hconfig⟩

/-- What a rising edge writes to the tick domain does not depend on what the foreground writes (R38, R100). -/
theorem SameTimebase.after_risingEdges (h : SameTimebase s t) : SameTimebase (risingEdge s) (risingEdge t) := by
  obtain ⟨⟨-, hhigh1, hsub, hclock, hreload⟩, hbase, hconfig⟩ := h
  simp [SameTimebase, SameTickDomain, hhigh1, hsub, hclock, hreload, hbase, hconfig]

/-- What a falling edge writes does not depend on what the foreground writes (R38, R101). -/
theorem SameTimebase.after_fallingEdges (h : SameTimebase s t) : SameTimebase (fallingEdge s) (fallingEdge t) := by
  obtain ⟨⟨-, hhigh1, hsub, hclock, hreload⟩, hbase, hconfig⟩ := h
  simp [SameTimebase, SameTickDomain, hhigh1, hsub, hclock, hreload, hbase, hconfig]

/-- An access leaves the tick domain, at the same time (R38). -/
theorem StepEffect.access_sameTimebase (h : StepEffect o s t) (access : nextIsTick o s = false) :
    SameTimebase s t := by
  rcases h.edge_or_sameTimebase with ⟨-, tick, -⟩ | ⟨-, tick, -⟩ | ⟨-, hsame⟩
  · simp [access] at tick
  · simp [access] at tick
  · exact hsame

/-- Two ticks keep two states alike: `high10` tells which edge it is in both (R82). -/
theorem StepEffect.tick_sameTimebase (h : StepEffect o s s') (h' : StepEffect o t t') (tick : nextIsTick o s = true)
    (tick' : nextIsTick o t = true) (hsame : SameTimebase s t) : SameTimebase s' t' := by
  obtain ⟨⟨hhigh10, -⟩, -⟩ := id hsame
  rcases h.edge_or_sameTimebase with ⟨low, -, rfl⟩ | ⟨high, -, rfl⟩ | ⟨access, -⟩
  · rcases h'.edge_or_sameTimebase with ⟨-, -, rfl⟩ | ⟨high, -, -⟩ | ⟨access, -⟩
    · exact SameTimebase.after_risingEdges (s := s.consume o) (t := t.consume o) hsame
    · simp [hhigh10, low] at high
    · simp [tick'] at access
  · rcases h'.edge_or_sameTimebase with ⟨low, -, -⟩ | ⟨-, -, rfl⟩ | ⟨access, -⟩
    · simp [hhigh10, high] at low
    · exact SameTimebase.after_fallingEdges (s := s.consume o) (t := t.consume o) hsame
    · simp [tick'] at access
  · simp [tick] at access

/-- The step of an ordered expiry or access of 32 bits completes, as a step of that kind. -/
theorem cycle_of_cons {e : Event} {es : List Event} (o : AccessOrder) (hc : s.config.isAdmitted = true)
    (hs : s.schedule = e :: es) (he : e.isInterface = true) :
    ∃ t, cycle o s = .next t ∧ nextIsTick o s = e.isExpiry ∧ t.schedule = es ∧ t.config.isAdmitted = true := by
  have hevent := nextEvent_of_cons o hs
  obtain ⟨t, hstep, htick⟩ := cycle_completes hc (by rwa [hevent])
  obtain ⟨hschedule, -, hconfig⟩ := cycle_order hstep
  exact ⟨t, hstep, by rw [htick, hevent], by rw [hschedule, hs, List.tail_cons], hconfig ▸ hc⟩

/-- The run of a schedule and the run of its expiries alone, from two states with the same tick domain: an access moves
the first run only and leaves its tick domain, an expiry moves both alike. -/
theorem run_sameTimebase_expiries (o : AccessOrder) {es : List Event} (hes : ∀ e ∈ es, e.isInterface = true)
    (hc : s.config.isAdmitted = true) (hs : s.schedule = es) (ht : t.schedule = es.filter Event.isExpiry)
    (hsame : SameTimebase s t) :
    ∃ s' t', runUnder o es.length s = .next s' ∧
      runUnder o (es.filter Event.isExpiry).length t = .next t' ∧ SameTimebase s' t' := by
  induction es generalizing s t with
  | nil => exact ⟨s, t, rfl, rfl, hsame⟩
  | cons e es ih =>
    obtain ⟨he, hrest⟩ := List.forall_mem_cons.mp hes
    obtain ⟨u, hstep, htick, hu, hcu⟩ := cycle_of_cons o hc hs he
    cases hexpiry : e.isExpiry with
    | false =>
      rw [hexpiry] at htick
      rw [List.filter_cons_of_neg (by simp [hexpiry])] at ht ⊢
      have haccess := (cycle_effect hstep).access_sameTimebase htick
      obtain ⟨s', t', hrun, hrun', hend⟩ := ih hrest hcu hu ht (haccess.symm.trans hsame)
      exact ⟨s', t', (runUnder_succ_of_next hstep _).trans hrun, hrun', hend⟩
    | true =>
      rw [hexpiry] at htick
      rw [List.filter_cons_of_pos hexpiry] at ht ⊢
      obtain ⟨-, -, hconfig⟩ := id hsame
      obtain ⟨v, hstep', htick', hv, -⟩ := cycle_of_cons o (hconfig ▸ hc) ht he
      rw [hexpiry] at htick'
      have hticks := (cycle_effect hstep).tick_sameTimebase (cycle_effect hstep') htick htick' hsame
      obtain ⟨s', t', hrun, hrun', hend⟩ := ih hrest hcu hu hv hticks
      exact ⟨s', t', (runUnder_succ_of_next hstep _).trans hrun, (runUnder_succ_of_next hstep' _).trans hrun', hend⟩

end

/-! ### The words the reads return (R53 to R60) -/

/-- A read without a side effect leaves the block state (R63). -/
theorem sameBlock_returnWord (s : State) (d : Word) : SameBlock s (s.returnWord d) :=
  ⟨⟨rfl, rfl, rfl, rfl, rfl⟩, rfl, rfl, rfl⟩

theorem statusWord_toNat (b : Bool) : (statusWord b).toNat = if b then 1 else 0 := by
  cases b <;> rfl

theorem byteWord_toNat (b : Byte) : (byteWord b).toNat = b.toNat :=
  BitVec.toNat_setWidth_of_le (by decide)

/-- The word of a TAKE as a number: the flag above the time layout, whose hour ends below bit 21 (R55). -/
theorem takeWord_toNat (old : Bool) (c : TimeOfDay) :
    (takeWord old c).toNat =
      old.toNat * 2 ^ 31 + (c.hour.val * 0x10000 + c.minute.val * 0x100 + c.second.val) := by
  have hhour := c.hour.isLt
  have hminute := c.minute.isLt
  have hsecond := c.second.isLt
  unfold takeWord
  rw [toNat_append_eq_add, toNat_append_eq_add, timeWord_extract_toNat, BitVec.toNat_ofBool, BitVec.toNat_ofNat]
  omega

/-- Bits 30:21 of a TAKE's word are 0, and bits 20:0 are the time layout (R55). -/
theorem takeWord_fields (old : Bool) (c : TimeOfDay) :
    (takeWord old c).extractLsb' 21 10 = 0 ∧
      ((takeWord old c).extractLsb' 0 21).toNat =
        c.hour.val * 0x10000 + c.minute.val * 0x100 + c.second.val := by
  have hhour := c.hour.isLt
  have hminute := c.minute.isLt
  have hsecond := c.second.isLt
  simp only [← BitVec.toNat_inj, BitVec.extractLsb'_toNat, Nat.shiftRight_eq_div_pow, takeWord_toNat,
    BitVec.ofNat_eq_ofNat, BitVec.toNat_ofNat]
  omega

/-! ### The two bits of a CMD write (R83, R183) -/

theorem cmdClear_eq_decide (d : Word) : cmdClear d = decide (d.toNat % 2 = 1) := by
  rw [cmdClear, BitVec.getLsbD, Nat.testBit_eq_decide_div_mod_eq, pow_zero, Nat.div_one]

theorem cmdLatch_eq_decide (d : Word) : cmdLatch d = decide (d.toNat / 2 % 2 = 1) := by
  rw [cmdLatch, BitVec.getLsbD, Nat.testBit_eq_decide_div_mod_eq, pow_one]

theorem cmdClear_mask (d : Word) : cmdClear (d &&& 3#32) = cmdClear d := by
  simp [cmdClear]

theorem cmdLatch_mask (d : Word) : cmdLatch (d &&& 3#32) = cmdLatch d := by
  simp [cmdLatch]

/-- A CMD write depends on the two bits of its data only (R183). -/
theorem exec_wrCmd_congr {d d' : Word} (hclear : cmdClear d = cmdClear d') (hlatch : cmdLatch d = cmdLatch d')
    (s : State) : exec (.wrCmd d) s = exec (.wrCmd d') s := by
  simp only [exec, execWrCmd, pendingAfterCmd, hclear, hlatch]

/-! ### SNAP, and the sentence it selects (R184, R185, R187) -/

/-- No tick writes the SNAP latch (R38). -/
theorem exec_tick_snap {i : Instr} {s t : State} (htick : i.isTick = true) (h : exec i s = .next t) :
    t.snap = s.snap := by
  cases i with
  | tickRise =>
    obtain ⟨-, rfl⟩ := execTickRise_next h
    exact risingEdge_snap s
  | tickFall =>
    obtain ⟨-, rfl⟩ := execTickFall_next h
    exact fallingEdge_snap s
  | rdStatus | rdTime | rdTake | wrCmd _ | rdSnap | rdCsum | rdLen | rdSent _ => cases htick

/-- The checksum of a sentence, as a running exclusive-OR over its bytes 1 to 61 (R154). -/
theorem foldl_xor_payload (q : List Byte) :
    ((q.drop 1).take 61).foldl (fun c b => c ^^^ b) 0#8 = checksum q := by
  rw [foldl_xor_eq, BitVec.zero_xor]
  rfl

/-- The word `0x080 + i` reads byte `i` of the sentence, and past the sentence's end is illegal (R84, R86). -/
theorem decode_sent (i : BitVec 7) (d : Word) :
    decode (0x080#10 + i.setWidth 10) d = if i.toNat < Config.sentLen then .instr (.rdSent i) else .busFault := by
  calc decode (0x080#10 + i.setWidth 10) d
      = decode (fgWord false (1#1 ++ i)) d := congrArg (decode · d) (sentReadWord_eq i).symm
    _ = _ := by rw [decode_fgWord_read, decodeRead_sent]

/-- The bytes outside the payload, but the last checksum digit, are the same for every time (R155, R159). -/
theorem render_fixed_bytes (t : TimeOfDay) :
    (render t)[0]? = some 0x24#8 ∧ (render t)[62]? = some 0x2A#8 ∧ (render t)[63]? = some 0x35#8 ∧
      (render t)[65]? = some 0x0D#8 ∧ (render t)[66]? = some 0x0A#8 := by
  refine ⟨rfl, rfl, ?_, rfl, rfl⟩
  rw [render_getElem?_63, checksum_render_high]
  rfl

/-! ### The statements settled -/

/-- Settles O59: along the two runs the tick domains stay equal, since only the expiries, which both have, move them. -/
theorem accessesDoNotDisturbTheTickDomain : Obligations.AccessesDoNotDisturbTheTickDomain := by
  intro s es hc hes
  have hstart : SameTimebase { s with schedule := es } { s with schedule := es.filter Event.isExpiry } :=
    ⟨⟨rfl, rfl, rfl, rfl, rfl⟩, rfl, rfl⟩
  obtain ⟨t, u, hrun, hrun', hdomain, hbase, -⟩ := run_sameTimebase_expiries Config.foregroundOrder hes
    (s := { s with schedule := es }) (t := { s with schedule := es.filter Event.isExpiry }) hc rfl rfl hstart
  exact ⟨t, u, hrun, hrun', hdomain, hbase.symm⟩

/-- Settles O29: the word is the time layout of the clock. -/
theorem rdTimeReturnsTheClock : Obligations.RdTimeReturnsTheClock :=
  ⟨decode_encode (i := .rdTime) rfl, fun s =>
    ⟨_, _, rfl, rfl, timeWord_toNat s.clock, sameBlock_returnWord s _⟩⟩

/-- Settles O31: the word's fields, the two writes, and a second TAKE from the state the first leaves. -/
theorem rdTakeTakesFlagAndClock : Obligations.RdTakeTakesFlagAndClock := by
  refine ⟨decode_encode (i := .rdTake) rfl, fun s => ?_⟩
  obtain ⟨hzero, htime⟩ := takeWord_fields s.pending s.clock
  have hkept : s.pending = false → (if s.pending then s.clock else s.snap) = s.snap := fun hclear => by simp [hclear]
  exact ⟨_, _, rfl, rfl, takeWord_flag _ _, hzero, htime, rfl, fun hset => if_pos hset, hkept,
    ⟨rfl, rfl, rfl, rfl, rfl⟩, rfl, _, _, rfl, rfl, takeWord_flag _ _, rfl⟩

/-- Settles O32: the two bits by value, and the same two bits in the masked data. -/
theorem wrCmdLatchesAndClears : Obligations.WrCmdLatchesAndClears := by
  refine ⟨fun d => decode_encode (i := .wrCmd d) rfl 0, fun s d => ?_⟩
  refine ⟨_, rfl, ?latch, ?clear, ⟨rfl, rfl, rfl, rfl, rfl⟩, rfl,
    exec_wrCmd_congr (cmdClear_mask d) (cmdLatch_mask d) s⟩
  case latch => simp [cmdLatch_eq_decide]
  case clear => simp [pendingAfterCmd, cmdClear_eq_decide]

/-- Settles O33: the word is the time layout of the latch, and neither tick writes it. -/
theorem rdSnapReturnsTheLatch : Obligations.RdSnapReturnsTheLatch :=
  ⟨decode_encode (i := .rdSnap) rfl,
    fun s => ⟨_, _, rfl, rfl, timeWord_toNat s.snap, sameBlock_returnWord s _⟩,
    fun _ _ _ htick h => exec_tick_snap htick h⟩

/-- Settles O34: the byte returned is the checksum, whose high digit is 5. -/
theorem rdCsumReturnsTheChecksum : Obligations.RdCsumReturnsTheChecksum := by
  refine ⟨decode_encode (i := .rdCsum) rfl, fun s => ⟨_, _, rfl, rfl, ?_⟩⟩
  have hhigh := checksum_render_high s.snap
  rw [byteWord_toNat, foldl_xor_payload]
  exact ⟨rfl, by omega, by omega, sameBlock_returnWord s _⟩

/-- Settles O36: the index selects the word and the byte, and five of the bytes are fixed. -/
theorem rdSentReturnsTheByte : Obligations.RdSentReturnsTheByte := by
  refine ⟨fun i hi d => ?past, fun i hi => ⟨fun d => ?word, fun s => ?byte⟩⟩
  case past => rw [decode_sent, if_neg (Nat.not_lt.mpr hi)]
  case word => rw [decode_sent, if_pos (Nat.lt_succ_of_le hi)]
  case byte =>
    obtain ⟨b, hb⟩ := exists_render_byte hi s.snap
    have hfixed : ∀ {k : Nat} {c : Byte}, (render s.snap)[k]? = some c → i.toNat = k → b.toNat = c.toNat := by
      rintro k c hc rfl
      exact congrArg BitVec.toNat (Option.some.inj (hb.symm.trans hc))
    obtain ⟨h0, h62, h63, h65, h66⟩ := render_fixed_bytes s.snap
    refine ⟨_, byteWord b, exec_rdSent_of_byte s hb, rfl, ?_⟩
    rw [hb, byteWord_toNat]
    exact ⟨rfl, hfixed h0, hfixed h62, hfixed h63, hfixed h65, hfixed h66, sameBlock_returnWord s _⟩

/-- Settles O28: the word is the flag in bit 0. -/
theorem rdStatusReturnsTheFlag : Obligations.RdStatusReturnsTheFlag :=
  ⟨decode_encode (i := .rdStatus) rfl, fun s =>
    ⟨_, _, rfl, rfl, statusWord_toNat s.pending, sameBlock_returnWord s _⟩⟩

/-- Settles O35: the word is a constant of the block. -/
theorem rdLenReturnsSixtySeven : Obligations.RdLenReturnsSixtySeven :=
  ⟨decode_encode (i := .rdLen) rfl, fun s => ⟨_, lenWord, rfl, rfl, rfl, sameBlock_returnWord s _⟩⟩

end Sys2Proof.Machine

/-! # The family of 60_exceptions.md: the BusFault (R221, R224), the refusals (R222), the sticky records (R224), and
fairness over infinite runs (R229, R239) -/

namespace Sys2Proof.Machine

/-! ### A BusFault as a step (R221, R224) -/

/-- The word of a read is its offset (R81). -/
theorem fgWord_read_eq (a : Offset) : fgWord false a = a.setWidth 10 := by
  revert a
  decide

/-- The word of a write is its offset with bit 8 set (R81). -/
theorem fgWord_write_eq (a : Offset) : fgWord true a = 0x100#10 + a.setWidth 10 := by
  revert a
  decide

/-- Only a write's record holds data (R221). -/
theorem faultRecord_fgWord (w : Bool) (a : Offset) (d : Word) :
    faultRecord (fgWord w a) d = { op := fgWord w a, data := if w then some d else none } := by
  simp [faultRecord]

/-- A step whose word is illegal takes the BusFault of that word. -/
theorem cycle_of_busFault {o : AccessOrder} {s : State} {op : OpWord} {d : Word} (hconfig : s.config.isAdmitted = true)
    (hfetch : fetch o s = .word op d) (hdecode : decode op d = .busFault) :
    cycle o s = .next (takeBusFault op d (s.consume o)) := by
  rw [cycle_admitted hconfig, hfetch]
  simp only [performFetched, performDecoded, hdecode]

/-- The step of an ordered access whose word is illegal, as a whole state. -/
theorem step_of_ordered_busFault {s : State} {e : Event} {es : List Event} {w : Bool} {a : Offset} {d : Word}
    (hconfig : s.config.isAdmitted = true) (hs : s.schedule = e :: es) (hfetch : fetchEvent s e = .word (fgWord w a) d)
    (hdecode : decode (fgWord w a) d = .busFault) :
    step s = .next { s with
      schedule := es
      busResult := none
      faults := s.faults ++ [{ op := fgWord w a, data := if w then some d else none }] } := by
  rw [step_eq_cycle, cycle_of_busFault hconfig ((fetch_of_cons _ hs).trans hfetch) hdecode, consume_of_cons _ hs,
    takeBusFault_eq, faultRecord_fgWord]

/-- A state with a record is no good state (R224). -/
theorem good_eq_false_of_record {s : State} {l : List FaultRecord} {r : FaultRecord} (h : s.faults = l ++ [r]) :
    s.good = false := by
  simp [State.good, h]

/-! ### The refusals (R222) -/

/-- A configuration out of the bounds of R9 is not admitted. -/
theorem admissible_eq_false {p : Params}
    (h : p.pulseWidthUs < 1 ∨ 100000 - 1 < p.pulseWidthUs ∨ p.initialAlarmUs < 1 ∨ p.n10 < 1 ∨ p.n1 < 1) :
    p.admissible = false := by
  rw [← Configuration_ofParams_isAdmitted, Bool.eq_false_iff]
  intro hadmitted
  have hbounds := admitted_bounds hadmitted
  simp only [Configuration_ofParams_params, Config.periodUs] at hbounds
  omega

/-- A configuration that is not admitted refuses every step, whatever is ordered (R222 a). -/
theorem cycle_of_not_admitted {o : AccessOrder} {s : State} (h : s.config.isAdmitted = false) :
    cycle o s = .refused .configurationOutOfBounds := by
  unfold cycle
  split
  · rfl
  · rename_i hconfig
    simp [hconfig, Configuration.isAdmitted] at h

/-- An ordered step that is refused when it is fetched. -/
theorem step_of_refused_fetch {s : State} {e : Event} {es : List Event} {r : Refusal}
    (hconfig : s.config.isAdmitted = true) (hs : s.schedule = e :: es) (hfetch : fetchEvent s e = .refused r) :
    step s = .refused r := by
  rw [step_eq_cycle, cycle_admitted hconfig, fetch_of_cons _ hs, hfetch]
  rfl

/-- An ordered step whose word is reserved (R222 b). -/
theorem step_of_reserved {s : State} {e : Event} {es : List Event} {op : OpWord} {d : Word}
    (hconfig : s.config.isAdmitted = true) (hs : s.schedule = e :: es) (hfetch : fetchEvent s e = .word op d)
    (hdecode : decode op d = .reserved) : step s = .refused .reservedTickWord := by
  rw [step_eq_cycle, cycle_admitted hconfig, fetch_of_cons _ hs, hfetch]
  simp only [performFetched, performDecoded, hdecode]

/-- An access of another width is refused, whatever its word (R62, R222 c). -/
theorem busAccess_of_ne {width : Nat} (h : width ≠ 32) (op : OpWord) (d : Word) :
    busAccess width op d = .refused .accessWidth :=
  if_neg h

/-- A refused step refuses the run that begins with it. -/
theorem runSteps_of_refused {s : State} {r : Refusal} (h : step s = .refused r) (n : Nat) :
    runSteps (n + 1) s = .refused r := by
  rw [runSteps_succ, h]

/-! ### Records are sticky and read by nothing (R224) -/

/-- From `s` to `t` the action `f` appends the records `l`, and from `s` with other records it does the same. -/
def AppendsRecords (f : State → StepOutcome) (l : List FaultRecord) (s t : State) : Prop :=
  t.faults = s.faults ++ l ∧ ∀ fs : List FaultRecord, f { s with faults := fs } = .next { t with faults := fs ++ l }

/-- What appends nothing, whatever records there are. -/
theorem appendsRecords_nil {f : State → StepOutcome} {s t : State} (hkeep : t.faults = s.faults)
    (h : ∀ fs : List FaultRecord, f { s with faults := fs } = .next { t with faults := fs }) :
    ∃ l : List FaultRecord, l.length ≤ 1 ∧ AppendsRecords f l s t :=
  ⟨[], Nat.zero_le 1, by rw [hkeep, List.append_nil], fun fs => by rw [h fs, List.append_nil]⟩

/-- No operation reads the records, and none appends one but RD_SENT past the sentence's end. -/
theorem exec_appendsRecords {i : Instr} {s t : State} (h : exec i s = .next t) :
    ∃ l : List FaultRecord, l.length ≤ 1 ∧ AppendsRecords (exec i) l s t := by
  cases i with
  | tickRise =>
    obtain ⟨low, rfl⟩ := execTickRise_next h
    exact appendsRecords_nil rfl fun fs => exec_tickRise_of_low (s := { s with faults := fs }) low
  | tickFall =>
    obtain ⟨high, rfl⟩ := execTickFall_next h
    exact appendsRecords_nil rfl fun fs => exec_tickFall_of_high (s := { s with faults := fs }) high
  | rdSent k =>
    rcases execRdSent_next h with ⟨b, hb, rfl⟩ | ⟨hpast, rfl⟩
    · exact appendsRecords_nil rfl fun fs => exec_rdSent_of_byte { s with faults := fs } hb
    · exact ⟨_, le_rfl, rfl, fun fs => execRdSent_of_ge hpast { s with faults := fs }⟩
  | rdStatus | rdTime | rdTake | wrCmd _ | rdSnap | rdCsum | rdLen =>
    cases h
    exact appendsRecords_nil rfl fun _ => rfl

/-- The word of the next step does not depend on the records. -/
theorem fetch_withFaults (o : AccessOrder) (s : State) (fs : List FaultRecord) :
    fetch o { s with faults := fs } = fetch o s := by
  show fetchEvent { s with faults := fs } (nextEvent o s) = fetchEvent s (nextEvent o s)
  cases nextEvent o s <;> rfl

/-- A step appends what its operation appends, or the record of its BusFault. -/
theorem cycle_appendsRecords {o : AccessOrder} {s t : State} (h : cycle o s = .next t) :
    ∃ l : List FaultRecord, l.length ≤ 1 ∧ AppendsRecords (cycle o) l s t := by
  obtain ⟨hconfig, op, d, hfetch, hperform⟩ := cycle_next h
  have hfetch' : ∀ fs, fetch o { s with faults := fs } = .word op d := fun fs => (fetch_withFaults o s fs).trans hfetch
  rcases hperform with ⟨i, hdecode, hexec⟩ | ⟨hdecode, rfl⟩
  · obtain ⟨l, hlength, hfaults, hany⟩ := exec_appendsRecords hexec
    exact ⟨l, hlength, hfaults, fun fs =>
      (cycle_of_decode (s := { s with faults := fs }) hconfig (hfetch' fs) hdecode).trans (hany fs)⟩
  · exact ⟨[faultRecord op d], le_rfl, rfl, fun fs =>
      cycle_of_busFault (s := { s with faults := fs }) hconfig (hfetch' fs) hdecode⟩

/-! ### What is reached on an infinite run (R239) -/

/-- The run from `s` comes to `t`. -/
def Reaches (o : AccessOrder) (s t : State) : Prop := ∃ m, runUnder o m s = .next t

/-- The run has come past the entries of `schedule`, to the order's own steps. -/
def OnOrder (s : State) : Prop := s.config.isAdmitted = true ∧ s.schedule = []

section
variable {o : AccessOrder} {s t u : State}

theorem Reaches.refl (o : AccessOrder) (s : State) : Reaches o s s := ⟨0, rfl⟩

theorem Reaches.of_cycle (h : cycle o s = .next t) : Reaches o s t := ⟨1, runUnder_succ_of_next h 0⟩

theorem Reaches.trans (h : Reaches o s t) (h' : Reaches o t u) : Reaches o s u := by
  obtain ⟨m, hm⟩ := h
  obtain ⟨n, hn⟩ := h'
  exact ⟨m + n, (runUnder_add hm n).trans hn⟩

/-- Once on the order, each step is the order's own and the run stays on it. -/
theorem OnOrder.after_cycle (hs : OnOrder s) (h : cycle o s = .next t) :
    OnOrder t ∧ t.position = s.position.after o := by
  obtain ⟨hconfig, hempty⟩ := hs
  obtain ⟨hschedule, hposition, hkept⟩ := cycle_order h
  exact ⟨⟨hkept ▸ hconfig, by rw [hschedule, hempty, List.tail_nil]⟩, by rw [hposition, nextPosition_of_nil o hempty]⟩

theorem OnOrder.after_run (hs : OnOrder s) {n : Nat} (h : runUnder o n s = .next t) : OnOrder t := by
  induction n generalizing s with
  | zero =>
    cases h
    exact hs
  | succ n ih =>
    obtain ⟨u, hstep, hrest⟩ := runUnder_succ_next h
    exact ih (hs.after_cycle hstep).1 hrest

/-- On the order every step completes, as a step of the kind the order has there. -/
theorem OnOrder.completes (hs : OnOrder s) (o : AccessOrder) :
    ∃ t, cycle o s = .next t ∧ nextIsTick o s = (s.position.event o).isExpiry := by
  obtain ⟨hconfig, hempty⟩ := hs
  have hinterface := nextEvent_isInterface (s := s) o (by simp [hempty])
  rw [← nextEvent_of_nil o hempty]
  exact cycle_completes hconfig hinterface

/-- The entries of `schedule` are finitely many: any run comes to the order, and past any number of steps. -/
theorem exists_onOrder_later (o : AccessOrder) (hconfig : s.config.isAdmitted = true)
    (hinterface : ∀ e ∈ s.schedule, e.isInterface = true) (n : Nat) :
    ∃ m t, n ≤ m ∧ runUnder o m s = .next t ∧ OnOrder t := by
  obtain ⟨t, hrun, hdrop, hkept⟩ := runUnder_completes o (n + s.schedule.length) hconfig hinterface
  exact ⟨_, t, Nat.le_add_right n _, hrun, hkept ▸ hconfig, by rw [hdrop, List.drop_of_length_le (by omega)]⟩

/-- What a run reaches from every state on the order is ahead however far a run has come. -/
theorem exists_later_step {P : State → State → Prop} (hconfig : s.config.isAdmitted = true)
    (hinterface : ∀ e ∈ s.schedule, e.isInterface = true)
    (hahead : ∀ r, OnOrder r → ∃ t u, Reaches o r t ∧ cycle o t = .next u ∧ P t u) (n : Nat) :
    ∃ m t u, n ≤ m ∧ runUnder o m s = .next t ∧ runUnder o (m + 1) s = .next u ∧ P t u := by
  obtain ⟨k, r, hk, hrun, hr⟩ := exists_onOrder_later o hconfig hinterface n
  obtain ⟨t, u, ⟨m, hreach⟩, hstep, hP⟩ := hahead r hr
  have ht : runUnder o (k + m) s = .next t := (runUnder_add hrun m).trans hreach
  exact ⟨k + m, t, u, by omega, ht, (runUnder_add ht 1).trans (runUnder_succ_of_next hstep 0), hP⟩

/-! ### The alarm (R229) -/

theorem SameTickDomain.refl (s : State) : SameTickDomain s s := ⟨rfl, rfl, rfl, rfl, rfl⟩

theorem SameTickDomain.trans (h : SameTickDomain s t) (h' : SameTickDomain t u) : SameTickDomain s u := by
  obtain ⟨hhigh10, hhigh1, hsub, hclock, hreload⟩ := h
  obtain ⟨hhigh10', hhigh1', hsub', hclock', hreload'⟩ := h'
  exact ⟨hhigh10'.trans hhigh10, hhigh1'.trans hhigh1, hsub'.trans hsub, hclock'.trans hclock, hreload'.trans hreload⟩

@[simp] theorem accessEvent_isExpiry (a : Access) : (accessEvent a).isExpiry = false := by
  cases a <;> rfl

/-- An access the order has next is performed, and leaves the tick domain (R38). -/
theorem OnOrder.access_step {a : Access} (hs : OnOrder s) (hevent : s.position.event o = accessEvent a) :
    ∃ t, cycle o s = .next t ∧ nextIsTick o s = false ∧ SameTickDomain s t := by
  obtain ⟨t, hstep, htick⟩ := hs.completes o
  have haccess : nextIsTick o s = false := by rw [htick, hevent, accessEvent_isExpiry]
  exact ⟨t, hstep, haccess, ((cycle_effect hstep).access_sameTimebase haccess).1⟩

/-- An interval's accesses are finitely many: the expiry that ends it comes, and finds the tick domain as it is now. -/
theorem OnOrder.expiry_ahead (hs : OnOrder s) (o : AccessOrder) :
    ∃ t u, Reaches o s t ∧ SameTickDomain s t ∧ nextIsTick o t = true ∧ cycle o t = .next u ∧ OnOrder u ∧
      u.position = { interval := s.position.interval + 1, issued := 0 } := by
  induction hleft : (o s.position.interval).length - s.position.issued generalizing s with
  | zero =>
    rcases s.position.event_cases o with ⟨a, ha, -, -⟩ | ⟨-, hevent, hafter⟩
    · have hlt := (List.getElem?_eq_some_iff.mp ha).1
      omega
    · obtain ⟨u, hstep, htick⟩ := hs.completes o
      obtain ⟨hu, hposition⟩ := hs.after_cycle hstep
      exact ⟨s, u, .refl o s, .refl s, by rw [htick, hevent]; rfl, hstep, hu, hposition.trans hafter⟩
  | succ left ih =>
    rcases s.position.event_cases o with ⟨a, -, hevent, hafter⟩ | ⟨hdone, -, -⟩
    · obtain ⟨r, hstep, -, hsame⟩ := hs.access_step hevent
      obtain ⟨hr, hposition⟩ := hs.after_cycle hstep
      rw [hafter] at hposition
      have hleft' : (o r.position.interval).length - r.position.issued = left := by
        simp only [hposition]
        omega
      obtain ⟨t, u, hreach, hsame', htick, hstep', hu, hend⟩ := ih hr hleft'
      rw [hposition] at hend
      exact ⟨t, u, (Reaches.of_cycle hstep).trans hreach, hsame.trans hsame', htick, hstep', hu, hend⟩
    · omega

/-- A tick is an edge: it changes the 10 Hz group, at the time of the expiry (R82, R229). -/
theorem StepEffect.tick_edge (h : StepEffect o s t) (tick : nextIsTick o s = true) :
    (nextInstr o s = some .tickRise ∨ nextInstr o s = some .tickFall) ∧ t.alarmBase = s.nextExpiry ∧
      t.high10 = !s.high10 := by
  cases h with
  | rise low op _ eq =>
    subst eq
    exact ⟨.inl op, rfl, by rw [low]; rfl⟩
  | fall high op _ eq =>
    subst eq
    exact ⟨.inr op, rfl, by rw [high]; rfl⟩
  | take _ access _ | cmd _ _ access _ | other access _ _ _ _ _ => simp [tick] at access

/-! ### The accesses of an order (R239) -/

/-- Every later interval begins. -/
theorem OnOrder.interval_ahead (hs : OnOrder s) (o : AccessOrder) {j : Nat} (hj : s.position.interval + 1 ≤ j) :
    ∃ t, Reaches o s t ∧ OnOrder t ∧ t.position = { interval := j, issued := 0 } := by
  induction j, hj using Nat.le_induction with
  | base =>
    obtain ⟨t, u, hreach, -, -, hstep, hu, hposition⟩ := hs.expiry_ahead o
    exact ⟨u, hreach.trans (.of_cycle hstep), hu, hposition⟩
  | succ j _ ih =>
    obtain ⟨r, hreach, hr, hposition⟩ := ih
    obtain ⟨t, u, hreach', -, -, hstep, hu, hposition'⟩ := hr.expiry_ahead o
    exact ⟨u, (hreach.trans hreach').trans (.of_cycle hstep), hu, by rw [hposition', hposition]⟩

/-- An interval that has begun comes to each of its accesses. -/
theorem OnOrder.issued_ahead {j i : Nat} (hs : OnOrder s) (hstart : s.position = { interval := j, issued := 0 })
    (hi : i ≤ (o j).length) : ∃ t, Reaches o s t ∧ OnOrder t ∧ t.position = { interval := j, issued := i } := by
  induction i with
  | zero => exact ⟨s, .refl o s, hs, hstart⟩
  | succ i ih =>
    obtain ⟨r, hreach, hr, hposition⟩ := ih (by omega)
    obtain ⟨t, hstep, -⟩ := hr.completes o
    obtain ⟨ht, hafter⟩ := hr.after_cycle hstep
    refine ⟨t, hreach.trans (.of_cycle hstep), ht, ?_⟩
    rcases r.position.event_cases o with ⟨a, -, -, hnext⟩ | ⟨hdone, -, -⟩
    · rw [hafter, hnext, hposition]
    · simp only [hposition] at hdone
      omega

/-- Every access that the order has in a later interval comes. -/
theorem OnOrder.access_ahead {j : Nat} {a : Access} (hs : OnOrder s) (hj : s.position.interval + 1 ≤ j)
    (ha : a ∈ o j) : ∃ t, Reaches o s t ∧ OnOrder t ∧ t.position.event o = accessEvent a := by
  obtain ⟨i, hi⟩ := List.mem_iff_getElem?.mp ha
  obtain ⟨r, hreach, hr, hstart⟩ := hs.interval_ahead o hj
  obtain ⟨t, hreach', ht, hposition⟩ := hr.issued_ahead hstart (List.getElem?_eq_some_iff.mp hi).1.le
  exact ⟨t, hreach.trans hreach', ht, by simp only [OrderPosition.event, hposition, hi]⟩

/-! ### The 1 Hz event comes, and a TAKE finds its flag (R67, R182) -/

/-- How many ticks come before that of the next 1 Hz event: two for each count that is missing, and the falling edge of
a pulse that is active. -/
def ticksToEvent (s : State) : Nat := 2 * (9 - s.sub.val) + s.high10.toNat

theorem ticksToEvent_of_sameTickDomain (h : SameTickDomain s t) : ticksToEvent t = ticksToEvent s := by
  obtain ⟨hhigh10, -, hsub, -, -⟩ := h
  simp only [ticksToEvent, hhigh10, hsub]

/-- Each tick is the event, which sets the flag, or brings it nearer. -/
theorem StepEffect.pending_or_ticksToEvent_lt (h : StepEffect o s t) (tick : nextIsTick o s = true) :
    t.pending = true ∨ ticksToEvent t < ticksToEvent s := by
  rcases h.edge_or_sameTimebase with ⟨low, -, rfl⟩ | ⟨high, -, rfl⟩ | ⟨access, -⟩
  · by_cases h9 : s.sub.val = 9
    · left
      rw [risingEdge_pending_eq, State.consume_sub, h9]
      rfl
    · have hlt := s.sub.isLt
      refine .inr ?_
      simp only [ticksToEvent, risingEdge_sub_val, State.consume_sub, risingEdge_high10, low, Bool.toNat_true,
        Bool.toNat_false]
      omega
  · exact .inr (by simp [ticksToEvent, high])
  · simp [tick] at access

/-- The flag comes to be set, whatever accesses fall between (R132). -/
theorem OnOrder.pending_ahead (hs : OnOrder s) (o : AccessOrder) :
    ∃ t, Reaches o s t ∧ OnOrder t ∧ t.pending = true := by
  induction hleft : ticksToEvent s using Nat.strong_induction_on generalizing s with
  | _ left ih =>
    obtain ⟨t, u, hreach, hsame, htick, hstep, hu, -⟩ := hs.expiry_ahead o
    have hreachU := hreach.trans (.of_cycle hstep)
    rcases (cycle_effect hstep).pending_or_ticksToEvent_lt htick with hset | hlt
    · exact ⟨u, hreachU, hu, hset⟩
    · rw [ticksToEvent_of_sameTickDomain hsame, hleft] at hlt
      obtain ⟨v, hreachV, hv, hset⟩ := ih _ hlt hu rfl
      exact ⟨v, hreachU.trans hreachV, hv, hset⟩

/-- The operation of a read the order has next. -/
theorem OnOrder.nextInstr_of_read {a : Offset} (hs : OnOrder s) (hevent : s.position.event o = accessEvent (.read a)) :
    nextInstr o s = (decodeRead a).toInstr? := by
  obtain ⟨-, hempty⟩ := hs
  have hfetch : fetch o s = .word (fgWord false a) 0 := by
    rw [fetch, nextEvent_of_nil o hempty, hevent]
    rfl
  simp only [nextInstr, hfetch, decode_fgWord_read]

/-- The operation of a write the order has next. -/
theorem OnOrder.nextInstr_of_write {a : Offset} {d : Word} (hs : OnOrder s)
    (hevent : s.position.event o = accessEvent (.write a d)) : nextInstr o s = (decodeWrite a d).toInstr? := by
  obtain ⟨-, hempty⟩ := hs
  have hfetch : fetch o s = .word (fgWord true a) d := by
    rw [fetch, nextEvent_of_nil o hempty, hevent]
    rfl
  simp only [nextInstr, hfetch, decode_fgWord_write]

theorem toInstr?_eq_some_iff {r : Decoded} {i : Instr} : r.toInstr? = some i ↔ r = .instr i := by
  cases r <;> simp [Decoded.toInstr?]

/-- On the order a CMD write is one of the order's own accesses, at the offset of CMD. -/
theorem OnOrder.write_mem_of_wrCmd {d : Word} (hs : OnOrder s) (hcmd : nextInstr o s = some (.wrCmd d)) :
    Access.write 0x03#8 d ∈ o s.position.interval := by
  rcases s.position.event_cases o with ⟨a, ha, hevent, -⟩ | ⟨-, hevent, -⟩
  · cases a with
    | read x =>
      rw [hs.nextInstr_of_read hevent, toInstr?_eq_some_iff] at hcmd
      obtain ⟨-, hencode⟩ := decodeRead_instr hcmd
      simp [encode] at hencode
    | write x e =>
      rw [hs.nextInstr_of_write hevent, toInstr?_eq_some_iff] at hcmd
      obtain ⟨rfl, hd⟩ := decodeWrite_instr hcmd
      cases hd
      exact List.mem_of_getElem? ha
  · obtain ⟨t, hstep, htick⟩ := hs.completes o
    rw [hevent] at htick
    obtain ⟨hrise | hfall, -⟩ := (cycle_effect hstep).tick_edge htick
    · simp [hrise] at hcmd
    · simp [hfall] at hcmd

/-- The step from `s` to `t` is a TAKE that returns the flag set and latches the clock. -/
def FlagTaken (o : AccessOrder) (s t : State) : Prop :=
  nextInstr o s = some .rdTake ∧ (∃ d, t.busResult = some d ∧ d.getLsbD 31 = true) ∧ t.snap = s.clock

/-- A TAKE that finds the flag set takes it (R182). -/
theorem StepEffect.flagTaken (h : StepEffect o s t) (htake : nextInstr o s = some .rdTake)
    (hset : s.pending = true) : FlagTaken o s t := by
  cases h with
  | take _ _ eq =>
    subst eq
    exact ⟨htake, ⟨takeWord s.pending s.clock, rfl, by rw [takeWord_flag, hset]⟩, if_pos hset⟩
  | rise _ op _ _ | fall _ op _ _ | cmd _ op _ _ => simp [htake] at op
  | other _ noWrite _ _ _ _ => cases noWrite _ htake

/-- Where TAKE recurs and no CMD write has CLEAR, a TAKE comes that finds the flag set: the flag is set some time, and
what takes it before a given TAKE is a TAKE itself. -/
theorem OnOrder.take_ahead (hs : OnOrder s) (htake : Recurs (.read 0x02#8) o)
    (hclear : ∀ k d, Access.write 0x03#8 d ∈ o k → d.getLsbD 0 = false) :
    ∃ t u, Reaches o s t ∧ cycle o t = .next u ∧ FlagTaken o t u := by
  obtain ⟨r, hreach, hr, hset⟩ := hs.pending_ahead o
  obtain ⟨j, hj, ha⟩ := htake (r.position.interval + 1)
  obtain ⟨t, ⟨n, hrun⟩, ht, hevent⟩ := hr.access_ahead hj ha
  rcases holds_or_lost_on_run (fun x => x.pending = true) hset hrun with
    hkept | ⟨m, t', u, -, hrun', -, hstep, hset', hlost⟩
  · obtain ⟨u, hstep, -⟩ := ht.completes o
    exact ⟨t, u, hreach.trans ⟨n, hrun⟩, hstep,
      (cycle_effect hstep).flagTaken (ht.nextInstr_of_read hevent) hkept⟩
  · rcases (cycle_effect hstep).takesPending hset' hlost with ⟨hop, -⟩ | ⟨d, hop, hbit⟩
    · exact ⟨t', u, hreach.trans ⟨m, hrun'⟩, hstep, (cycle_effect hstep).flagTaken hop hset'⟩
    · have hnoClear := hclear _ d ((hr.after_run hrun').write_mem_of_wrCmd hop)
      rw [hbit] at hnoClear
      cases hnoClear

end

/-! ### The statements settled -/

/-- Settles O40: the offset decodes to a BusFault (R86), and the step is the whole state that it leaves. -/
theorem busFaultOnlyAppendsItsRecord : Obligations.BusFaultOnlyAppendsItsRecord := by
  intro s rest a hconfig
  constructor
  · intro hs hoffset
    have hdecode : decode (fgWord false a) 0 = .busFault :=
      (decode_fgWord_read a 0).trans ((decodeRead_eq_busFault_iff a).mpr hoffset)
    have hstep := step_of_ordered_busFault hconfig hs (busAccess_accessBits _ _) hdecode
    rw [fgWord_read_eq] at hstep
    exact ⟨_, hstep, ⟨rfl, rfl, rfl, rfl, rfl⟩, rfl, rfl, rfl, rfl, rfl, rfl, rfl, rfl, good_eq_false_of_record rfl⟩
  · intro d hs hoffset
    have hdecode : decode (fgWord true a) d = .busFault :=
      (decode_fgWord_write a d).trans ((decodeWrite_eq_busFault_iff a d).mpr hoffset)
    have hstep := step_of_ordered_busFault hconfig hs (busAccess_accessBits _ _) hdecode
    rw [fgWord_write_eq] at hstep
    exact ⟨_, hstep, ⟨rfl, rfl, rfl, rfl, rfl⟩, rfl, rfl, rfl, rfl, rfl, rfl, rfl, rfl, good_eq_false_of_record rfl⟩

/-- Settles O41: in each of the cases the first step is refused: by the configuration, by the decoder, by the width. -/
theorem refusalsStopTheRun : Obligations.RefusalsStopTheRun := by
  intro s n
  refine ⟨fun p hp hbounds => ?configuration, fun hconfig rest => ⟨fun w d hs hlow hhigh => ?reserved,
    fun a width hs hwidth => ?readWidth, fun a width d hs hwidth => ?writeWidth⟩⟩
  case configuration =>
    have hrejected : s.config.isAdmitted = false := by
      rw [hp, Configuration_ofParams_isAdmitted, admissible_eq_false hbounds]
    exact runSteps_of_refused (cycle_of_not_admitted hrejected) n
  case reserved =>
    have hdecode : decode (BitVec.ofNat 10 w) d = .reserved := by
      rw [decode_eq_reserved_iff, toNat_ofNat_word (by omega)]
      exact hlow
    have hfetch : fetchEvent s (.namedWord w d) = .word (BitVec.ofNat 10 w) d := if_pos (Nat.lt_succ_of_le hhigh)
    exact runSteps_of_refused (step_of_reserved hconfig hs hfetch hdecode) n
  case readWidth => exact runSteps_of_refused (step_of_refused_fetch hconfig hs (busAccess_of_ne hwidth _ _)) n
  case writeWidth => exact runSteps_of_refused (step_of_refused_fetch hconfig hs (busAccess_of_ne hwidth _ _)) n

/-- Settles O43: what the step's operation or its BusFault appends, whatever records there are. -/
theorem faultsAreStickyAndStopNothing : Obligations.FaultsAreStickyAndStopNothing :=
  fun _ _ h => cycle_appendsRecords h

/-- Settles O55: the present interval's accesses are finitely many, and the expiry after them is an edge. -/
theorem theAlarmFiresForEver : Obligations.TheAlarmFiresForEver := by
  intro o s hconfig hinterface
  apply exists_later_step hconfig hinterface
  intro r hr
  obtain ⟨t, u, hreach, -, htick, hstep, -, -⟩ := hr.expiry_ahead o
  exact ⟨t, u, hreach, hstep, (cycle_effect hstep).tick_edge htick⟩

/-- Settles O56: a later interval has an access, which the run comes to. -/
theorem aFairForegroundAccessesForEver : Obligations.AFairForegroundAccessesForEver := by
  intro o s hfair hconfig hinterface
  apply exists_later_step hconfig hinterface
  intro r hr
  obtain ⟨j, hj, hsome⟩ := hfair (r.position.interval + 1)
  obtain ⟨a, ha⟩ := List.exists_mem_of_ne_nil _ hsome
  obtain ⟨t, hreach, ht, hevent⟩ := hr.access_ahead hj ha
  obtain ⟨u, hstep, haccess, hsame⟩ := ht.access_step hevent
  exact ⟨t, u, hreach, hstep, haccess, hsame⟩

/-- Settles O57: the flag is set within twenty ticks, nothing but a TAKE takes it, and the TAKE that does returns it. -/
theorem takeReturnsTheFlagAgainAndAgain : Obligations.TakeReturnsTheFlagAgainAndAgain := by
  intro o s htake hclear hconfig hinterface n
  obtain ⟨m, t, u, hm, ht, hu, hop, ⟨d, hd, hflag⟩, hsnap⟩ :=
    exists_later_step (P := FlagTaken o) hconfig hinterface (fun _ hr => hr.take_ahead htake hclear) n
  exact ⟨m, t, u, d, hm, ht, hop, hu, hd, hflag, hsnap⟩

end Sys2Proof.Machine

/-! # The family of 70_reset_and_hazards.md: what reset leaves (R250), and the 1 Hz event between a LATCH and a CLEAR
(R256) -/

namespace Sys2Proof.Machine

/-! ### Reset (R250) -/

/-- At reset no pin of the 10 Hz group is active. -/
theorem out10_resetWith {c : Configuration} {l : BitVec 1} (h : l ∈ (State.resetWith c).out10) : l = 0#1 :=
  eq_of_mem_out10 h

/-- At reset no pin of the 1 Hz group is active. -/
theorem out1_resetWith {c : Configuration} {l : BitVec 1} (h : l ∈ (State.resetWith c).out1) : l = 0#1 :=
  eq_of_mem_out1 h

/-- The word of SEED in the time layout (R54). -/
theorem timeWord_seed : timeWord Config.seed = 0x000C0000#32 := by
  decide

/-- The checksum of the sentence for SEED (R159). -/
theorem checksum_render_seed : checksum (render Config.seed) = 0x5B#8 := by
  rw [checksum_render_eq]
  decide

/-! ### The steps of the two listings of R256 -/

section
variable {s t : State} {es : List Event}

theorem runSteps_succ_of_next (h : step s = .next t) (n : Nat) : runSteps (n + 1) s = runSteps n t :=
  runUnder_succ_of_next h n

/-- What an ordered CMD write leaves (R183): its two writes, and the rest of the time base as it was. -/
theorem step_of_ordered_wrCmd (d : Word) (hconfig : s.config.isAdmitted = true)
    (hs : s.schedule = Listing.wrCmd d :: es) :
    ∃ t, step s = .next t ∧ t.snap = (if cmdLatch d then s.clock else s.snap) ∧
      t.pending = pendingAfterCmd d s.pending ∧ SameTimebase s t ∧ t.schedule = es := by
  obtain ⟨-, hwrite⟩ := accessRunsItsRegistersOperation s es (.wrCmd d) hconfig rfl
  exact ⟨_, hwrite d rfl hs, rfl, rfl, ⟨⟨rfl, rfl, rfl, rfl, rfl⟩, rfl, rfl⟩, rfl⟩

/-- What an ordered expiry leaves where it is the 1 Hz event (R100): the flag and the new second, and SNAP as it was. -/
theorem step_of_ordered_oneHzEvent (hconfig : s.config.isAdmitted = true) (low : s.high10 = false)
    (h9 : s.sub.val = 9) (hs : s.schedule = Listing.tick :: es) :
    ∃ t, step s = .next t ∧ t.clock = advance s.clock ∧ t.pending = true ∧ t.snap = s.snap ∧
      t.config = s.config ∧ t.schedule = es := by
  obtain ⟨-, hrise, -⟩ := expiryRunsTheOperationOfTheState s es hconfig hs
  refine ⟨_, (hrise low).trans (exec_tickRise_of_low low), ?clock, ?pending, rfl, rfl, rfl⟩
  case clock => exact (risingEdge_clock_eq _).trans (if_pos h9)
  case pending => rw [risingEdge_pending_eq, decide_eq_true h9, Bool.true_or]

/-- What an ordered TAKE returns and leaves where it finds the flag set (R182). -/
theorem step_of_ordered_rdTake (hconfig : s.config.isAdmitted = true) (hset : s.pending = true)
    (hs : s.schedule = Listing.rdTake :: es) :
    ∃ t d, step s = .next t ∧ t.busResult = some d ∧ d.getLsbD 31 = true ∧ t.pending = false ∧
      t.snap = s.clock ∧ t.clock = s.clock := by
  obtain ⟨hread, -⟩ := accessRunsItsRegistersOperation s es .rdTake hconfig rfl
  exact ⟨_, _, hread rfl hs, rfl, (takeWord_flag _ _).trans hset, rfl, if_pos hset, rfl⟩

end

/-! ### The statements settled -/

/-- Settles O60: the LATCH reads the clock before the event and the CLEAR takes the event's flag unread; the TAKE reads
both in its own step. -/
theorem splitClearLosesTheEventAndTakeDoesNot : Obligations.SplitClearLosesTheEventAndTakeDoesNot := by
  intro s rest hconfig low h9
  constructor
  · intro hs
    obtain ⟨latched, hlatch, hsnap, -, ⟨⟨hhigh10, -, hsub, hclock, -⟩, -, hconfigL⟩, hsL⟩ :=
      step_of_ordered_wrCmd _ hconfig hs
    obtain ⟨ticked, htick, hadvance, -, hkept, hconfigT, hsT⟩ :=
      step_of_ordered_oneHzEvent (hconfigL ▸ hconfig) (hhigh10.trans low) (hsub ▸ h9) hsL
    obtain ⟨cleared, hclear, hsnapC, hpending, ⟨⟨-, -, -, hclockC, -⟩, -, -⟩, -⟩ :=
      step_of_ordered_wrCmd _ (hconfigT ▸ hconfigL ▸ hconfig) hsT
    have hearlier : cleared.snap = s.clock := hsnapC.trans (hkept.trans hsnap)
    have hnow : cleared.clock = advance s.clock := by rw [hclockC, hadvance, hclock]
    have hrun : runSteps 3 s = .next cleared := by
      rw [runSteps_succ_of_next hlatch, runSteps_succ_of_next htick, runSteps_succ_of_next hclear, runSteps_zero]
    refine ⟨cleared, hrun, hpending, hearlier, hnow, ?_⟩
    rw [hearlier, hnow]
    exact (advance_ne s.clock).symm
  · intro hs
    obtain ⟨ticked, htick, hadvance, hset, -, hconfigT, hsT⟩ := step_of_ordered_oneHzEvent hconfig low h9 hs
    obtain ⟨taken, d, htake, hd, hflag, hpending, hsnap, hclock⟩ :=
      step_of_ordered_rdTake (hconfigT ▸ hconfig) hset hsT
    have hrun : runSteps 2 s = .next taken := by
      rw [runSteps_succ_of_next htick, runSteps_succ_of_next htake, runSteps_zero]
    exact ⟨taken, d, hrun, hd, hflag, hpending, hsnap.trans hadvance, hclock.trans hsnap.symm⟩

/-- Settles O11: the pins are at the level of clear flags, TIME and SNAP are the word of SEED, CSUM its checksum. -/
theorem resetLeavesTheSpecifiedState : Obligations.ResetLeavesTheSpecifiedState := by
  refine ⟨⟨Config.chosen, rfl, rfl⟩, ?_⟩
  rintro c _ rfl
  have htime : returned .rdTime (State.resetWith c) = some 0x000C0000#32 := congrArg some timeWord_seed
  have hsnap : returned .rdSnap (State.resetWith c) = some 0x000C0000#32 := congrArg some timeWord_seed
  have hcsum : returned .rdCsum (State.resetWith c) = some 0x0000005B#32 :=
    (returned_rdCsum _).trans (congrArg (some ∘ byteWord) checksum_render_seed)
  exact ⟨rfl, rfl, rfl, rfl, rfl, rfl, rfl, rfl, fun _ => out10_resetWith, fun _ => out1_resetWith,
    rfl, htime, hsnap, hcsum⟩

end Sys2Proof.Machine

/-! # Two readings of the order of the steps: what follows an empty schedule (R64, R229, R230, R239; log entry 1), and a
table word placed for the next step (R80, R82; log entry 8) -/

namespace Sys2Proof.Machine

section
variable {o : AccessOrder} {s : State}

/-! ### The step at a position of an order (R229, R239) -/

/-- Where the interval has an access left, that access comes, and the position moves past it. -/
theorem OrderPosition.next_of_access {p : OrderPosition} {a : Access} (ha : (o p.interval)[p.issued]? = some a) :
    p.event o = accessEvent a ∧ p.after o = { p with issued := p.issued + 1 } := by
  rcases p.event_cases o with ⟨b, hb, hevent, hafter⟩ | ⟨hdone, -, -⟩
  · cases hb.symm.trans ha
    exact ⟨hevent, hafter⟩
  · rw [List.getElem?_eq_none hdone] at ha
    cases ha

/-- Where it has none left, the expiry that ends the interval comes. -/
theorem OrderPosition.next_of_done {p : OrderPosition} (hdone : (o p.interval).length ≤ p.issued) :
    p.event o = .expiry ∧ p.after o = { interval := p.interval + 1, issued := 0 } := by
  rcases p.event_cases o with ⟨b, hb, -, -⟩ | ⟨-, hevent, hafter⟩
  · rw [List.getElem?_eq_none hdone] at hb
    cases hb
  · exact ⟨hevent, hafter⟩

/-- A step depends on the state through its configuration, what it fetches, and the state it is taken from. -/
theorem cycle_congr {t : State} (hconfig : s.config = t.config) (hfetch : fetch o s = fetch o t)
    (hconsume : s.consume o = t.consume o) : cycle o s = cycle o t := by
  unfold cycle
  rw [hconfig, hfetch, hconsume]

/-- The order's own step may as well stand first in `schedule`, with the position moved past it (log entry 1). -/
theorem cycle_of_nil (hs : s.schedule = []) {e : Event} {p : OrderPosition}
    (hnext : s.position.event o = e ∧ s.position.after o = p) :
    cycle o s = cycle o { s with schedule := [e], position := p } := by
  obtain ⟨hevent, hafter⟩ := hnext
  refine cycle_congr rfl ?fetch ?consume
  case fetch =>
    rw [fetch, nextEvent_of_nil o hs, hevent]
    rfl
  case consume => rw [consume_of_nil o hs, consume_of_cons o rfl, hafter, ← hs]

/-! ### A table word placed for the next step (R80, R82) -/

/-- All that a table word which decodes to an operation can be: a ten-bit word, with the data beside it. -/
theorem decodeTableWord_eq_some {nbits w : Nat} {i : Instr} (h : decodeTableWord nbits w = some i) :
    ∃ op d, splitTableWord nbits w = (op, d) ∧ op < opWordCount ∧ decode (BitVec.ofNat 10 op) d = .instr i := by
  rcases hsplit : splitTableWord nbits w with ⟨op, d⟩
  simp only [decodeTableWord, hsplit] at h
  split_ifs at h with hop
  exact ⟨op, d, rfl, hop, toInstr?_eq_some_iff.mp h⟩

/-- Only the two tick words ask for a value of `high10` (R82). -/
theorem high10ForWord_of_decode {v : Nat} {d : Word} {i : Instr} (hv : v < opWordCount)
    (hdecode : decode (BitVec.ofNat 10 v) d = .instr i) (old : Bool) :
    high10ForWord v old = if i = .tickRise then false else if i = .tickFall then true else old := by
  have hvalue : v = (encode i).op.toNat := by rw [(encode_of_decode hdecode).2.1, toNat_ofNat_word hv]
  cases hkind : i.isTick with
  | true =>
    cases i with
    | tickRise | tickFall => subst hvalue; rfl
    | rdStatus | rdTime | rdTake | wrCmd _ | rdSnap | rdCsum | rdLen | rdSent _ => cases hkind
  | false =>
    have hlow : v < 512 := by
      simpa [fieldF_eq_decide, toNat_ofNat_word hv, hkind] using decode_instr_isTick hdecode
    have hrise : i ≠ .tickRise := by rintro rfl; cases hkind
    have hfall : i ≠ .tickFall := by rintro rfl; cases hkind
    rw [high10ForWord, if_neg (by omega), if_neg (by omega), if_neg hrise, if_neg hfall]

/-- A placed word's step, whatever the table's width: it runs in the state that selects the word. -/
theorem step_withFetchWord {nbits w op : Nat} {d : Word} {i : Instr} (hconfig : s.config.isAdmitted = true)
    (hsplit : splitTableWord nbits w = (op, d)) (hop : op < opWordCount)
    (hdecode : decode (BitVec.ofNat 10 op) d = .instr i) :
    step (s.withFetchWord nbits w) = exec i { s with high10 := high10ForWord op s.high10 } := by
  have hplaced : s.withFetchWord nbits w =
      { s with schedule := .namedWord op d :: s.schedule, high10 := high10ForWord op s.high10 } := by
    rw [State.withFetchWord, placeWord, hsplit]
  rw [hplaced]
  exact step_of_ordered hconfig rfl (if_pos hop) hdecode

end

/-! ### The statements settled -/

/-- Settles O10: the placed word is the first of `schedule`, and only a tick word changes `high10`. -/
theorem placedWordIsTheNextStep : Obligations.PlacedWordIsTheNextStep := by
  intro s w i hconfig htable
  obtain ⟨op, d, hsplit, hop, hdecode⟩ := decodeTableWord_eq_some htable
  rw [step_withFetchWord hconfig hsplit hop hdecode, high10ForWord_of_decode hop hdecode]

/-- Settles O9, by the two steps an order can have at a position. -/
theorem nothingOrderedFollowsTheOpenOrder : Obligations.NothingOrderedFollowsTheOpenOrder := by
  refine ⟨step_eq_cycle, fun o s hs => ⟨?access, fun hdone => cycle_of_nil hs (OrderPosition.next_of_done hdone)⟩⟩
  case access =>
    intro done a rest hinterval hissued
    have ha : (o s.position.interval)[s.position.issued]? = some a := by simp [hinterval, hissued]
    rw [← hissued]
    cases a with
    | read x | write x d => exact cycle_of_nil hs (OrderPosition.next_of_access ha)

end Sys2Proof.Machine
